-- ==== Sys2Proof/Word.lean ====
section
/-!
DEFINITION. The widths of the quantities the spec treats as bits, and the memory type.
-/

namespace Sys2Proof

/-- A 32-bit word: a command word, a register, a Color Table entry (R22 to R27, R11). -/
abbrev Word := BitVec 32

/-- One byte of a byte space (R40). -/
abbrev Byte := BitVec 8

/-- A 24-bit colour `0xRRGGBB` (R11, R44). -/
abbrev Rgb := BitVec 24

/-- A 2-bit pixel value (R81). -/
abbrev PixVal := BitVec 2

/-- A 4-bit field: an opcode, a cause code, a space number (R60, R23, R26). -/
abbrev Nibble := BitVec 4

/-- The contents of one space whose locations are `w` bits wide: the locations that hold a value, by address.
A location that is not listed holds no value (R18, R34). `Memory 8` is a list of `Host.Cell`. The canonical form
(addresses strictly rising) is `Memory.wf` of Machine/Ops.lean. -/
abbrev Memory (w : Nat) := List (Nat × BitVec w)

end Sys2Proof
end

