-- ==== Sys2Proof/Syntax.lean ====
section
/-!
DEFINITION. The seven commands (R3, R61), one constructor per row of spec/opcode_table.json. The operands are the
unsigned integers of R70; R75 lets a model hold them as unbounded naturals. Their ranges are WellFormed.lean's.
-/

namespace Sys2Proof

/-- The block's instruction set. Operands stand in the order of R72. -/
inductive Instr where
  /-- `TILE T, h, v, x0, y0` (R62, R84). -/
  | tile (t : Nat) (h v : Bool) (x0 y0 : Nat)
  /-- `RESOLVE g, p` (R63, R94). -/
  | resolve (g p : Nat)
  /-- `PATTERN sel` (R64, R104). -/
  | pattern (sel : Nat)
  /-- `NAMETABLE b` (R65, R114). -/
  | nametable (b : Nat)
  /-- `OAMVIEW` (R66, R128). -/
  | oamview
  /-- `COLORS` (R66, R136). -/
  | colors
  /-- `PALETTE` (R66, R138). -/
  | palette
deriving DecidableEq, Repr

end Sys2Proof
end

