-- ==== Sys2Proof/WellFormed.lean ====
section
/-!
DEFINITION. Which instructions have an encoding: every operand inside the range of its field (R62 to R66). The
`TILE` origins that leave `IX` are well formed: R62 encodes them and R85 faults on them when they run.
-/

namespace Sys2Proof

/-- Every operand fits its field. -/
def Instr.wellFormed : Instr → Bool
  | .tile t _ _ x0 y0 => decide (t < 512) && decide (x0 < 256) && decide (y0 < 256)
  | .resolve g p => decide (g < 8) && decide (p < 4)
  | .pattern sel => decide (sel < 2)
  | .nametable b => decide (b < 4)
  | .oamview => true
  | .colors => true
  | .palette => true

end Sys2Proof
end

