-- ==== Sys2Proof/Decode.lean ====
section
/-!
DEFINITION. Decoding and encoding of the 32-bit command word (R60 to R74).
-/

namespace Sys2Proof

/-- The bits `lo + n - 1` down to `lo` of a word, as an unsigned integer (`w[hi:lo]` of 00_scope.md section 6). -/
def field (w : Word) (lo n : Nat) : Nat := (w.extractLsb' lo n).toNat

/-- The opcode field `w[31:28]` as `STATUS.OP` records it (R60, R156). -/
def opField (w : Word) : Nibble := w.extractLsb' 28 4

/-- The opcodes of R61. -/
def opTile : Nibble := 0x1
/-- R61. -/
def opResolve : Nibble := 0x2
/-- R61. -/
def opPattern : Nibble := 0x3
/-- R61. -/
def opNametable : Nibble := 0x4
/-- R61. -/
def opOamview : Nibble := 0x5
/-- R61. -/
def opColors : Nibble := 0x6
/-- R61. -/
def opPalette : Nibble := 0x7

/-- Why a word is illegal (R68). -/
inductive DecodeReject where
  /-- The opcode is `0x0` or `0x8` to `0xF`. -/
  | opcode
  /-- The opcode is a command's and a reserved bit of its format is set (R67). -/
  | reserved
deriving DecidableEq, Repr

/-- `i` when no reserved bit is set (R67). -/
def unlessReserved (reserved : Nat) (i : Instr) : Except DecodeReject Instr :=
  if reserved = 0 then .ok i else .error .reserved

/-- `Decode(w)` of R74, total on all words. -/
def decode (w : Word) : Except DecodeReject Instr :=
  let op := opField w
  if op = opTile then
    unlessReserved (field w 27 1)
      (.tile (field w 0 9) (field w 9 1 == 1) (field w 10 1 == 1) (field w 11 8) (field w 19 8))
  else if op = opResolve then unlessReserved (field w 5 23) (.resolve (field w 2 3) (field w 0 2))
  else if op = opPattern then unlessReserved (field w 1 27) (.pattern (field w 0 1))
  else if op = opNametable then unlessReserved (field w 2 26) (.nametable (field w 0 2))
  else if op = opOamview then unlessReserved (field w 0 28) .oamview
  else if op = opColors then unlessReserved (field w 0 28) .colors
  else if op = opPalette then unlessReserved (field w 0 28) .palette
  else .error .opcode

/-- The opcode of an instruction (R61). -/
def Instr.opcode : Instr → Nibble
  | .tile .. => opTile
  | .resolve .. => opResolve
  | .pattern .. => opPattern
  | .nametable .. => opNametable
  | .oamview => opOamview
  | .colors => opColors
  | .palette => opPalette

/-- The operand bits of an instruction's word, by the formulas of R72 (the fields do not overlap, so `+` is `|`). -/
def Instr.operandBits : Instr → Nat
  | .tile t h v x0 y0 => y0 * 2 ^ 19 + x0 * 2 ^ 11 + v.toNat * 2 ^ 10 + h.toNat * 2 ^ 9 + t
  | .resolve g p => g * 2 ^ 2 + p
  | .pattern sel => sel
  | .nametable b => b
  | .oamview => 0
  | .colors => 0
  | .palette => 0

/-- The command word of a well-formed instruction (R62 to R66, R72). -/
def encode (i : Instr) : Word := BitVec.ofNat 32 (i.opcode.toNat * 2 ^ 28 + i.operandBits)

/-- The instruction the decoder reads from a word numbered as spec/opcode_table.json numbers it. A command is the one
word of one `CMD` write (R71), so the bits from `nbits` up are 0. -/
def decodeTableWord (nbits w : Nat) : Option Instr := (decode (BitVec.ofNat 32 (w % 2 ^ nbits))).toOption

/-- One row of the opcode table: `w` is the command exactly when `w &&& mask = pattern` (R62 to R66). -/
structure TableRow where
  pattern : Word
  mask : Word
deriving DecidableEq, Repr

/-- The match and mask of every format, as R62 to R66 state them. -/
def opcodeTable : List TableRow :=
  [⟨0x10000000, 0xF8000000⟩, ⟨0x20000000, 0xFFFFFFE0⟩, ⟨0x30000000, 0xFFFFFFFE⟩, ⟨0x40000000, 0xFFFFFFFC⟩,
   ⟨0x50000000, 0xFFFFFFFF⟩, ⟨0x60000000, 0xFFFFFFFF⟩, ⟨0x70000000, 0xFFFFFFFF⟩]

/-- The word matches the row (R62). -/
def TableRow.accepts (r : TableRow) (w : Word) : Bool := w &&& r.mask == r.pattern

/-- The assembler line of an instruction (R72): the mnemonic, then the operands in decimal, separated by commas. -/
def Instr.assembly : Instr → String
  | .tile t h v x0 y0 =>
    "TILE " ++ toString t ++ ", " ++ toString h.toNat ++ ", " ++ toString v.toNat ++ ", " ++ toString x0 ++ ", " ++
      toString y0
  | .resolve g p => "RESOLVE " ++ toString g ++ ", " ++ toString p
  | .pattern sel => "PATTERN " ++ toString sel
  | .nametable b => "NAMETABLE " ++ toString b
  | .oamview => "OAMVIEW"
  | .colors => "COLORS"
  | .palette => "PALETTE"

end Sys2Proof
end

