-- ==== Sys2Proof/Config.lean ====
section
/-!
DEFINITION. What one implementation fixes (R9, R32) and the free values: values the spec leaves unspecified (R166,
R51), constants without a body, so that nothing can be proved about which value they are.
-/

namespace Sys2Proof

/-- The implementation parameters of R32. They are fixed for a run: no event and no command changes them (R171).
They stand in the state so that a statement about every state is a statement about every choice of them. -/
structure Params where
  /-- `GRAY_RAMP[0..3]` (R102). -/
  grayRamp : Vector Byte 4
  /-- `OAM_FILL` (R127). -/
  oamFill : Rgb
  /-- `NT_ATTR_BASE` (R14); at most 1984, so that the 64 attribute bytes lie inside the 2048-byte bank. -/
  ntAttrBase : Fin 1985
  /-- `REG_BASE`, the bus address of the register window (R27). -/
  regBase : Nat
deriving DecidableEq, Repr

/-- The defaults of R9. R9 gives no value for `REG_BASE`: 0 here, DESIGN CHOICE, unsafe (log 6). -/
def Params.default : Params :=
  { grayRamp := #v[0xFF, 0xAA, 0x55, 0x00], oamFill := 0x000000, ntAttrBase := 960, regBase := 0 }

/-- A free value: the byte at address `a` of a surface that was left unspecified by the `n`-th unspecified result
(R166, U8). No body: nothing constrains it (log 7). -/
opaque Config.freeByte (n a : Nat) : Byte

/-- A free value: the pixel value of cell `a` of `IX` after the `n`-th unspecified result (R166, U8; log 7). -/
opaque Config.freeCell (n a : Nat) : PixVal

/-- A free value: the low 24 bits of `RGB` after, or as read at, the `n`-th unspecified result (R166, R51; log 7, 11). -/
opaque Config.freeRgb (n : Nat) : Rgb

end Sys2Proof
end

