-- ==== Sys2Proof/Machine/State.lean ====
section
/-!
DEFINITION. Everything the spec gives the machine, as plain data (10_state.md), the moves of the four agents
(R6, R180), the reasons a step can stop, and the state after reset (R33).
-/

namespace Sys2Proof.Machine

/-- The spaces, with the numbers of `FINFO.SPACE` (R26; the numbers are `Space.number`). -/
inductive Space where
  | none | ct | pal | chr | nt | oam | ix | command | surface
  /-- The two one-bit snapshot items (R40). They are not indexed, so R26 gives them no number of their own. -/
  | tall | bgsel
deriving DecidableEq, Repr

/-- The five views and their surfaces (R20). -/
inductive View where
  | pattern | nametable | oam | colors | palette
deriving DecidableEq, Repr

/-- The Memory Snapshot: the seven items of R10. A location that is absent holds no value: the Provider has not
written it (R18). -/
structure Snapshot where
  /-- `CT`, by entry (R11). -/
  ct : Memory 32
  /-- `PAL` (R12). -/
  pal : Memory 8
  /-- `CHR`, addressed linearly (R13). -/
  chr : Memory 8
  /-- `NT`: byte `o` of bank `b` is at `2048 * b + o` (R14). -/
  nt : Memory 8
  /-- `OAM` (R15). -/
  oam : Memory 8
  /-- `TALL` (R16). -/
  tall : Option Bool
  /-- `BGSEL` (R17). -/
  bgsel : Option (BitVec 1)
deriving DecidableEq, Repr

/-- The five output surfaces (R20), each its bytes by address (R44). -/
structure Surfaces where
  pattern : Memory 8
  nametable : Memory 8
  oam : Memory 8
  colors : Memory 8
  palette : Memory 8
deriving DecidableEq, Repr

/-- The readiness inputs `SURF_OK[0..4]` (R24). -/
structure SurfOk where
  pattern : Bool
  nametable : Bool
  oam : Bool
  colors : Bool
  palette : Bool
deriving DecidableEq, Repr

/-- `STATUS` by its fields (R23). Bits 31:12 always read as 0, so no field holds them. -/
structure Status where
  busy : Bool
  done : Bool
  fault : Bool
  surf : Bool
  code : Nibble
  op : Nibble
deriving DecidableEq, Repr

/-- `FINFO` by its fields (R26). Bits 31:28 always read as 0, so no field holds them. -/
structure FInfo where
  index : BitVec 16
  space : Nibble
  aux : Byte
deriving DecidableEq, Repr

/-- One move of an agent (R6, R180). -/
inductive Event where
  /-- The host writes `CMD` and the command takes no time: R158 whole, in one step (R173). -/
  | cmd (w : Word)
  /-- The host writes `CMD` and the command takes time: R158 steps 1 to 6; if the command is accepted it stays in
  flight with `BUSY = 1` (R173). -/
  | cmdBegin (w : Word)
  /-- The block reaches the end of the command in flight: R158 steps 7 and 8. -/
  | finish
  /-- The host writes `v` at a bus address, `bytes` wide (R27, R46). -/
  | hostWrite (addr bytes : Nat) (v : Word)
  /-- The host reads at a bus address, `bytes` wide (R27, R46). -/
  | hostRead (addr bytes : Nat)
  /-- The host reads cell `(x, y)` of `IX` (R19). -/
  | readIx (x y : Nat)
  /-- The host or the Sink reads byte `a` of a surface (R40). -/
  | readSurface (v : View) (a : Nat)
  /-- Reset is asserted (R170). -/
  | rst
  /-- The Provider writes one snapshot location (R180). -/
  | provideCt (k : Nat) (v : Word)
  | providePal (a : Nat) (v : Byte)
  | provideChr (a : Nat) (v : Byte)
  | provideNt (b o : Nat) (v : Byte)
  | provideOam (a : Nat) (v : Byte)
  | provideTall (v : Bool)
  | provideBgsel (v : BitVec 1)
  /-- The Sink drives `SURF_OK[v]` (R24). -/
  | driveSurfOk (v : View) (ok : Bool)
deriving DecidableEq, Repr

/-- The whole machine. -/
structure State where
  /-- The snapshot spaces (R10 to R18). -/
  snap : Snapshot
  /-- `SURF_OK` (R24). -/
  surfOk : SurfOk
  /-- The implementation parameters (R32); no step changes them. -/
  params : Params
  /-- `IX`: cell `(x, y)` is at `256 * y + x` (R19). -/
  ix : Memory 2
  /-- The five surfaces (R20). -/
  surfaces : Surfaces
  /-- `STATUS` (R23). -/
  status : Status
  /-- `RGB` (R25). -/
  rgb : Word
  /-- `FINFO` (R26). -/
  finfo : FInfo
  /-- The latched command word, while a command is in flight (R31). -/
  latched : Option Word
  /-- The model's own: the agents' moves still to come, in the order in which they happen (log 2). -/
  inputs : List Event
  /-- The model's own: what the last read by the host or the Sink returned (log 16). -/
  readData : Word
  /-- The model's own: how many free values have been drawn (log 7). -/
  freeIndex : Nat
deriving DecidableEq, Repr

/-- Why the machine stops with a fault. The block's own faults (R150) are no stops: they are next states. -/
inductive Fault where
  /-- Raised by a read of `IX` or of a surface by the host or the Sink, at a location that holds no value (R34, U6).
  Safe: the spec gives the read no value. -/
  | readOfNoValue (space : Space) (address : Nat)
  /-- Raised by an agent's access to an address outside the space (R40). Safe: no such location exists. -/
  | noSuchLocation (space : Space) (address : Nat)
deriving DecidableEq, Repr

/-- Why the model gives a step no meaning. -/
inductive Refusal where
  /-- Raised by `exec` for an instruction without a meaning; no arm raises it. Safe. -/
  | notModelled (mnemonic : String)
  /-- Raised by a command that reads a snapshot location the Provider has not written (R172 (a), U17: "a model
  refuses such a launch"). Safe. -/
  | snapshotNotWritten (space : Space) (address : Nat)
  /-- Raised by a register access that is not an aligned 32-bit word of the register window (R46, R27, U14). Safe. -/
  | registerAccess (address bytes : Nat)
  /-- Raised by a read of `IX` or a surface while `BUSY = 1` (R51, U7: "a model gives the host no such move"). Safe. -/
  | outputReadWhileBusy
  /-- Raised by a Provider write while `BUSY = 1` (R176, U4: "A model gives the Provider no such move"). Safe. -/
  | snapshotWriteWhileBusy
deriving DecidableEq, Repr

/-- A snapshot of which the Provider has written nothing. -/
def Snapshot.empty : Snapshot :=
  { ct := [], pal := [], chr := [], nt := [], oam := [], tall := none, bgsel := none }

/-- Surfaces that hold no value (R33). -/
def Surfaces.empty : Surfaces := { pattern := [], nametable := [], oam := [], colors := [], palette := [] }

/-- `STATUS = 0` (R33). -/
def Status.zero : Status := { busy := false, done := false, fault := false, surf := false, code := 0, op := 0 }

/-- `FINFO = 0` (R33). -/
def FInfo.zero : FInfo := { index := 0, space := 0, aux := 0 }

/-- The machine right after reset (R33), with nothing written by the Provider, every surface ready and the default
parameters. What reset does not touch (R18, R24, R32) holds here the values of log 3, 4 and 6. -/
def State.reset : State :=
  { snap := .empty, surfOk := ⟨true, true, true, true, true⟩, params := .default, ix := [], surfaces := .empty,
    status := .zero, rgb := 0, finfo := .zero, latched := none, inputs := [], readData := 0, freeIndex := 0 }

end Sys2Proof.Machine
end

