-- ==== Sys2Proof/Machine/Operands.lean ====
section
/-!
DEFINITION. Every address and operand computation the commands share (20_memory.md section 2, and the address parts
of 40 to 45): pure functions of numbers.
-/

namespace Sys2Proof.Machine

/-- `CHR` address of the plane-0 byte of row `r` of tile `t` (R41). -/
def plane0Addr (t r : Nat) : Nat := 16 * t + r

/-- `CHR` address of the plane-1 byte of row `r` of tile `t` (R41). -/
def plane1Addr (t r : Nat) : Nat := 16 * t + 8 + r

/-- Offset in a nametable bank of the tile index of a grid cell (R42). -/
def gridOffset (row col : Nat) : Nat := row * 32 + col

/-- Offset in a nametable bank of the attribute byte of a grid cell, for `NT_ATTR_BASE = base` (R42). -/
def attrOffset (base row col : Nat) : Nat := base + row / 4 * 8 + col / 4

/-- Key of byte `o` of bank `b` in `Snapshot.nt` (R14). -/
def ntKey (b o : Nat) : Nat := 2048 * b + o

/-- The attribute shift of a grid cell: 0, 2, 4 or 6 (R112). -/
def attrShift (row col : Nat) : Nat := row / 2 % 2 * 4 + col / 2 % 2 * 2

/-- The palette group that an attribute byte selects for a grid cell (R112). -/
def attrGroup (attr : Byte) (row col : Nat) : Nat := ((attr >>> attrShift row col) &&& 0b11).toNat

/-- `OAM` address of the tile index of sprite `s` (R43). -/
def oamIndexAddr (s : Nat) : Nat := 4 * s + 1

/-- `OAM` address of the attribute byte of sprite `s` (R43). -/
def oamAttrAddr (s : Nat) : Nat := 4 * s + 2

/-- `PalAddr(g, p)` (R90). -/
def palAddr (g p : Nat) : Nat := if p = 0 then 0 else 4 * g + p

/-- The `PAL` address the Palette view reads for entry `i` (R137). -/
def paletteViewAddr (i : Nat) : Nat := if i % 4 = 0 then 0 else i

/-- The pixel value of column `c` of the tile row with planes `p0` and `p1` (R80). The formula's result is below 4,
so its low two bits are all of it (R81). -/
def planePixel (p0 p1 : Byte) (c : Nat) : PixVal :=
  (((p0 >>> (7 - c)) &&& 1) ||| (((p1 >>> (7 - c)) &&& 1) <<< 1)).setWidth 2

/-- `Orient(h, v, r, c)`: the source row and column of a destination row and column (R82). -/
def orient (h v : Bool) (r c : Nat) : Nat × Nat := (if v then 7 - r else r, if h then 7 - c else c)

/-- The tile number of tile index `t` of pattern table `p` (R41). -/
def tileNumber (p t : Nat) : Nat := 256 * p + t

/-- The tile index of the Pattern-table view under pixel `(x, y)` (R101). -/
def patternCell (x y : Nat) : Nat := y / 8 * 16 + x / 8

/-- The sprite of the OAM strip under pixel `(x, y)` (R121). -/
def stripSprite (x y : Nat) : Nat := y / 16 * 32 + x / 8

/-- 0 in the upper half of a sprite's cell of the strip, 1 in the lower (R121, R127). -/
def stripHalf (y : Nat) : Nat := y % 16 / 8

/-- `v = at[7]` (R122). -/
def spriteVflip (at' : Byte) : Bool := at'.getLsbD 7

/-- `h = at[6]` (R122). -/
def spriteHflip (at' : Byte) : Bool := at'.getLsbD 6

/-- `g = 4 + at[1:0]` (R122). -/
def spriteGroup (at' : Byte) : Nat := 4 + (at' &&& 0b11).toNat

/-- The tile of the upper (`half = 0`) or lower half of a tall sprite with stored index `idx` (R123). -/
def tallTile (idx : Byte) (half : Nat) : Nat :=
  tileNumber (idx &&& 0x01).toNat (if half = 0 then (idx &&& 0xFE).toNat else (idx ||| 0x01).toNat)

/-- The tile of an 8 by 8 sprite: from the pattern table backgrounds do not use (R124). -/
def shortTile (bgsel : BitVec 1) (idx : Byte) : Nat := tileNumber (1 - bgsel.toNat) idx.toNat

/-- `CT[k][23:0]` (R11). -/
def entryRgb (e : Word) : Rgb := e.extractLsb' 0 24

/-- `Gray(p)`: the ramp's intensity in all three channels (R102). -/
def gray (ramp : Vector Byte 4) (p : PixVal) : Rgb :=
  let i := ramp[p.toNat]
  i ++ i ++ i

/-- Key of cell `(x, y)` of `IX` (R19). -/
def ixKey (x y : Nat) : Nat := 256 * y + x

/-- The first byte of pixel `(x, y)` of a surface of width `w` (R44). -/
def pixelBase (w x y : Nat) : Nat := 3 * (y * w + x)

/-- Byte `k` of a pixel: red, green, blue (R44). -/
def pixelByte (c : Rgb) : Nat → Byte
  | 0 => c.extractLsb' 16 8
  | 1 => c.extractLsb' 8 8
  | _ => c.extractLsb' 0 8

/-- The square of a `TILE` lies inside `IX` (R85). -/
def tileFits (x0 y0 : Nat) : Bool := decide (x0 ≤ 248) && decide (y0 ≤ 232)

/-- The surface id of a view (R20). -/
def View.id : View → Nat
  | .pattern => 0
  | .nametable => 1
  | .oam => 2
  | .colors => 3
  | .palette => 4

/-- The width of a view's surface in pixels (R20). -/
def View.width : View → Nat
  | .pattern => 128
  | .nametable => 256
  | .oam => 256
  | .colors => 16
  | .palette => 16

/-- The height of a view's surface in pixels (R20). -/
def View.height : View → Nat
  | .pattern => 128
  | .nametable => 240
  | .oam => 32
  | .colors => 4
  | .palette => 2

/-- The number of bytes of a view's surface (R20). -/
def View.bytes (v : View) : Nat := 3 * (v.width * v.height)

/-- The view a command renders (R20, R54). -/
def viewOf : Instr → Option View
  | .tile .. => none
  | .resolve .. => none
  | .pattern .. => some .pattern
  | .nametable .. => some .nametable
  | .oamview => some .oam
  | .colors => some .colors
  | .palette => some .palette

/-- The number of locations of a space that is indexed by one number (R40). -/
def Space.size : Space → Nat
  | .ct => 64
  | .pal => 32
  | .chr => 8192
  | .nt => 8192
  | .oam => 256
  | .ix => 61440
  | .none | .command | .surface | .tall | .bgsel => 0

/-- The space number `FINFO.SPACE` records (R26). -/
def Space.number : Space → Nibble
  | .none => 0
  | .ct => 1
  | .pal => 2
  | .chr => 3
  | .nt => 4
  | .oam => 5
  | .ix => 6
  | .command => 7
  | .surface => 8
  | .tall | .bgsel => 0

end Sys2Proof.Machine
end

