-- ==== Sys2Proof/Machine/Flags.lean ====
section
/-!
DEFINITION. `STATUS` and `FINFO`: their words (R23, R26), the causes (R150), and every change of the flags (R156,
R157, R158).
-/

namespace Sys2Proof.Machine

/-- The word the host reads at `STATUS` (R23). -/
def Status.word (st : Status) : Word :=
  BitVec.ofNat 32
    (st.busy.toNat + 2 * st.done.toNat + 4 * st.fault.toNat + 8 * st.surf.toNat + 16 * st.code.toNat + 256 * st.op.toNat)

/-- The word the host reads at `FINFO` (R26). -/
def FInfo.word (f : FInfo) : Word :=
  BitVec.ofNat 32 (f.index.toNat + 65536 * f.space.toNat + 1048576 * f.aux.toNat)

/-- The causes that are faults (R150). -/
inductive Cause where
  | outOfRange
  /-- Kept so that the taxonomy of R153 has a place; no rule raises it (log 21). -/
  | invariant
  | illegalCmd
  | overrun
deriving DecidableEq, Repr

/-- `STATUS.CODE` of a fault (R150). -/
def Cause.code : Cause → Nibble
  | .outOfRange => 1
  | .invariant => 3
  | .illegalCmd => 4
  | .overrun => 5

/-- `STATUS.CODE` of a surface error (R150). -/
def surfaceErrorCode : Nibble := 2

/-- What a fault records beside its opcode (R151, R154, R155). -/
structure FaultInfo where
  cause : Cause
  space : Space
  index : Nat
  aux : Nat
deriving DecidableEq, Repr

/-- `FINFO` of a fault (R26, R156). -/
def FaultInfo.finfo (f : FaultInfo) : FInfo :=
  { index := BitVec.ofNat 16 f.index, space := f.space.number, aux := BitVec.ofNat 8 f.aux }

/-- `FINFO` of a surface error (R157). -/
def surfaceErrorInfo (v : View) : FInfo :=
  { index := BitVec.ofNat 16 v.id, space := Space.surface.number, aux := 0 }

/-- `OutOfRange(space, index, aux)` (R151). -/
def outOfRange (space : Space) (index aux : Nat) : FaultInfo := ⟨.outOfRange, space, index, aux⟩

/-- `IllegalCmd` for the word `w` (R154). -/
def illegalCmd (w : Word) : FaultInfo := ⟨.illegalCmd, .command, field w 0 16, field w 20 8⟩

/-- `Overrun`: `FINFO = 0` (R155). -/
def overrunInfo : FaultInfo := ⟨.overrun, .none, 0, 0⟩

/-- R158 step 3, the `STATUS` part. -/
def Status.cleared (st : Status) : Status := { st with done := false, surf := false, code := 0, op := 0 }

/-- R158 step 5. -/
def Status.started (st : Status) : Status := { st with busy := true }

/-- R158 step 8. -/
def Status.completed (st : Status) : Status := { st with busy := false, done := true }

/-- Fault entry, the `STATUS` part (R156). -/
def Status.faulted (st : Status) (code op : Nibble) : Status :=
  { st with busy := false, done := true, fault := true, surf := false, code := code, op := op }

/-- Surface error entry, the `STATUS` part (R157); `FAULT` stays. -/
def Status.surfaceErred (st : Status) (op : Nibble) : Status :=
  { st with busy := false, done := true, surf := true, code := surfaceErrorCode, op := op }

end Sys2Proof.Machine
end

