-- ==== Sys2Proof/Machine/Ops.lean ====
section
/-!
DEFINITION. The shared operations: memories, the checked snapshot reads (R49), taking a fault or a surface error
(R156, R157), normal completion (R158 step 8), rendering one view (R55, R159, R166).
-/

namespace Sys2Proof

/-- The value a location holds, if it holds one (R34). -/
def Memory.read {w : Nat} (m : Memory w) (a : Nat) : Option (BitVec w) :=
  match m with
  | [] => none
  | (k, v) :: rest => if k = a then some v else Memory.read rest a

/-- Write one location. -/
def Memory.write {w : Nat} (m : Memory w) (a : Nat) (v : BitVec w) : Memory w :=
  match m with
  | [] => [(a, v)]
  | (k, u) :: rest =>
    if a < k then (a, v) :: (k, u) :: rest
    else if a = k then (a, v) :: rest
    else (k, u) :: Memory.write rest a v

/-- Every address of the memory is above `a` and they rise strictly. -/
def Memory.risesAbove {w : Nat} (a : Nat) (m : Memory w) : Bool :=
  match m with
  | [] => true
  | (k, _) :: rest => decide (a < k) && Memory.risesAbove k rest

/-- The canonical form: addresses strictly rising. An unlisted location holds no value, so no entry can equal what an
unlisted address reads as. -/
def Memory.wf {w : Nat} (m : Memory w) : Bool :=
  match m with
  | [] => true
  | (k, _) :: rest => Memory.risesAbove k rest

/-- Every address is below `n`. -/
def Memory.below {w : Nat} (n : Nat) (m : Memory w) : Bool := m.all fun cell => decide (cell.1 < n)

/-- Every address below `n` is listed, and no other. -/
def Memory.full {w : Nat} (n : Nat) (m : Memory w) : Bool := m.map (·.1) == List.range n

/-- The memory that holds `f a` at every address `a` below `n` and nothing else. -/
def Memory.tabulate {w : Nat} (n : Nat) (f : Nat → BitVec w) : Memory w := (List.range n).map fun a => (a, f a)

namespace Machine

/-! ### Parts of the state -/

def SurfOk.get (o : SurfOk) : View → Bool
  | .pattern => o.pattern
  | .nametable => o.nametable
  | .oam => o.oam
  | .colors => o.colors
  | .palette => o.palette

def SurfOk.set (o : SurfOk) (v : View) (b : Bool) : SurfOk :=
  match v with
  | .pattern => { o with pattern := b }
  | .nametable => { o with nametable := b }
  | .oam => { o with oam := b }
  | .colors => { o with colors := b }
  | .palette => { o with palette := b }

def Surfaces.get (f : Surfaces) : View → Memory 8
  | .pattern => f.pattern
  | .nametable => f.nametable
  | .oam => f.oam
  | .colors => f.colors
  | .palette => f.palette

def Surfaces.set (f : Surfaces) (v : View) (m : Memory 8) : Surfaces :=
  match v with
  | .pattern => { f with pattern := m }
  | .nametable => { f with nametable := m }
  | .oam => { f with oam := m }
  | .colors => { f with colors := m }
  | .palette => { f with palette := m }

def State.setSnap (s : State) (x : Snapshot) : State := { s with snap := x }
def State.setSurfOk (s : State) (x : SurfOk) : State := { s with surfOk := x }
def State.setIx (s : State) (x : Memory 2) : State := { s with ix := x }
def State.setSurfaces (s : State) (x : Surfaces) : State := { s with surfaces := x }
def State.setStatus (s : State) (x : Status) : State := { s with status := x }
def State.setRgb (s : State) (x : Word) : State := { s with rgb := x }
def State.setFinfo (s : State) (x : FInfo) : State := { s with finfo := x }
def State.setLatched (s : State) (x : Option Word) : State := { s with latched := x }
def State.setInputs (s : State) (x : List Event) : State := { s with inputs := x }
def State.setReadData (s : State) (x : Word) : State := { s with readData := x }
def State.setFreeIndex (s : State) (x : Nat) : State := { s with freeIndex := x }

/-- The surface of a view (R20). -/
def State.surface (s : State) (v : View) : Memory 8 := s.surfaces.get v

/-- Replace the surface of a view. -/
def State.setSurface (s : State) (v : View) (m : Memory 8) : State := s.setSurfaces (s.surfaces.set v m)

/-! ### Snapshot reads -/

/-- Why a command's evaluation ends early: it raises a fault, or it reads a snapshot location nothing has written
(R172 (a)). -/
inductive Stop where
  | fault (f : FaultInfo)
  | unwritten (space : Space) (address : Nat)
deriving DecidableEq, Repr

/-- The fault of a stop that is one. -/
def Stop.fault? : Stop → Option FaultInfo
  | .fault f => some f
  | .unwritten _ _ => none

/-- The unwritten location of a stop that is one. -/
def Stop.gap? : Stop → Option (Space × Nat)
  | .fault _ => none
  | .unwritten space a => some (space, a)

/-- A bounds-checked read of location `index` of `space` (R49): an index outside the space raises
`OutOfRange(space, index, aux)` and the read is not made. -/
def checkedRead {w : Nat} (space : Space) (m : Memory w) (index aux : Nat) : Except Stop (BitVec w) :=
  if space.size ≤ index then .error (.fault (outOfRange space index aux))
  else
    match m.read index with
    | some v => .ok v
    | none => .error (.unwritten space index)

/-- `CT[k]`, where `k` is the byte at `PAL` address `aux` or, in the Colors view, `aux = 0` (R93). -/
def State.readCt (s : State) (k aux : Nat) : Except Stop Word := checkedRead .ct s.snap.ct k aux

/-- `PAL[a]`. -/
def State.readPal (s : State) (a : Nat) : Except Stop Byte := checkedRead .pal s.snap.pal a 0

/-- `CHR[a]`. -/
def State.readChr (s : State) (a : Nat) : Except Stop Byte := checkedRead .chr s.snap.chr a 0

/-- `NT[b][o]`. -/
def State.readNt (s : State) (b o : Nat) : Except Stop Byte := checkedRead .nt s.snap.nt (ntKey b o) 0

/-- `OAM[a]`. -/
def State.readOam (s : State) (a : Nat) : Except Stop Byte := checkedRead .oam s.snap.oam a 0

/-- `TALL`. -/
def State.readTall (s : State) : Except Stop Bool :=
  match s.snap.tall with
  | some b => .ok b
  | none => .error (.unwritten .tall 0)

/-- `BGSEL`. -/
def State.readBgsel (s : State) : Except Stop (BitVec 1) :=
  match s.snap.bgsel with
  | some b => .ok b
  | none => .error (.unwritten .bgsel 0)

/-! ### How a command ends -/

/-- The command ends: no latched word stays (R31). -/
def State.endCommand (s : State) (st : Status) : State := (s.setStatus st).setLatched none

/-- Taking a fault: the entry of R156. A fault that is already on record stays the one on record (R23, R160). -/
def raiseFault (op : Nibble) (f : FaultInfo) (s : State) : State :=
  if s.status.fault then s
  else (s.endCommand (s.status.faulted f.cause.code op)).setFinfo f.finfo

/-- Taking a surface error: the entry of R157. There is no return operation: the next accepted `CMD` write clears it
(R161, `clearReport`), and only reset clears a fault (R160, `resetBlock`). -/
def raiseSurfaceError (op : Nibble) (v : View) (s : State) : State :=
  (s.endCommand (s.status.surfaceErred op)).setFinfo (surfaceErrorInfo v)

/-- Normal completion (R158 step 8). -/
def complete (s : State) : State := s.endCommand s.status.completed

/-- R158 step 3: what the last command reported is cleared. -/
def clearReport (s : State) : State := (s.setStatus s.status.cleared).setFinfo .zero

/-- R158 step 5: the command is in flight and its word is latched (R31). -/
def startCommand (w : Word) (s : State) : State := (s.setStatus s.status.started).setLatched (some w)

/-- The state in which an accepted command executes: after R158 steps 3 and 5. -/
def acceptCommand (w : Word) (s : State) : State := startCommand w (clearReport s)

/-! ### Unspecified destinations (R166) -/

/-- One free value has been drawn. -/
def State.drawFree (s : State) : State := s.setFreeIndex (s.freeIndex + 1)

/-- Every byte of the view's surface is unspecified (R166): free values. -/
def spoilSurface (v : View) (s : State) : State :=
  (s.setSurface v (.tabulate v.bytes (Config.freeByte s.freeIndex))).drawFree

/-- The 64 cells of a `TILE` destination, in the loop order of R84, each with its offset `(c, r)` in the square. -/
def tileSquare : List (Nat × Nat) := (List.range 64).map fun n => (n % 8, n / 8)

/-- Write the 64 cells of the square at `(x0, y0)` (R84). -/
def writeSquare (m : Memory 2) (x0 y0 : Nat) (f : Nat → Nat → PixVal) : Memory 2 :=
  tileSquare.foldl (fun m cr => m.write (ixKey (x0 + cr.1) (y0 + cr.2)) (f cr.1 cr.2)) m

/-- The 64 target cells of a `TILE` in flight are unspecified (R166). A square that leaves `IX` has no target cell:
the bounds check comes before any write (R85; log 9). -/
def spoilTile (x0 y0 : Nat) (s : State) : State :=
  if tileFits x0 y0 then
    (s.setIx (writeSquare s.ix x0 y0 fun c r => Config.freeCell s.freeIndex (ixKey (x0 + c) (y0 + r)))).drawFree
  else s

/-- `RGB` is unspecified (R166); bits 31:24 still read as 0 (R25). -/
def spoilRgb (s : State) : State := (s.setRgb ((Config.freeRgb s.freeIndex).setWidth 32)).drawFree

/-- The destination of a command in flight becomes unspecified (R166). -/
def spoilDestination (i : Instr) (s : State) : State :=
  match i with
  | .tile _ _ _ x0 y0 => spoilTile x0 y0 s
  | .resolve _ _ => spoilRgb s
  | .pattern _ => spoilSurface .pattern s
  | .nametable _ => spoilSurface .nametable s
  | .oamview => spoilSurface .oam s
  | .colors => spoilSurface .colors s
  | .palette => spoilSurface .palette s

/-! ### Loops over pixels -/

/-- A function of a column and a row, as the views' pixel functions are. -/
abbrev PixelFn (α : Type) := Nat → Nat → Except Stop α

/-- Why the evaluation of one pixel ends early, if it does. -/
def stopOf {α : Type} : Except Stop α → Option Stop
  | .error e => some e
  | .ok _ => none

/-- The value of a pixel whose evaluation does not end early; where it does, no caller uses the result. -/
def pixelValue {w : Nat} : Except Stop (BitVec w) → BitVec w
  | .ok v => v
  | .error _ => 0

/-- The first early end in the loop order of R159: `y` ascending and, for each `y`, `x` ascending. -/
def firstStop {α : Type} (w h : Nat) (pix : PixelFn α) : Option Stop :=
  (List.range (w * h)).findSome? fun n => stopOf (pix (n % w) (n / w))

/-- `PutPixel`: the three byte writes of one pixel (R44). -/
def putPixel (w x y : Nat) (c : Rgb) : Memory 8 :=
  (List.range 3).map fun k => (pixelBase w x y + k, pixelByte c k)

/-- A whole surface, row-major (R44, R55). -/
def frameOf (w h : Nat) (pix : PixelFn Rgb) : Memory 8 :=
  (List.range (w * h)).flatMap fun n => putPixel w (n % w) (n / w) (pixelValue (pix (n % w) (n / w)))

/-- The outcome of a `TILE` or `RESOLVE` that ends early: its destination keeps its old value (R166). -/
def stopped (op : Nibble) (e : Stop) (s : State) : Host.Outcome State Fault Refusal :=
  match e with
  | .fault f => .next (raiseFault op f s)
  | .unwritten space a => .refused (.snapshotNotWritten space a)

/-- Every location of the snapshot is written: the premise of R172 (a) for every command at once. -/
def Snapshot.complete (n : Snapshot) : Bool :=
  n.ct.full 64 && n.pal.full 32 && n.chr.full 8192 && n.nt.full 8192 && n.oam.full 256 && n.tall.isSome && n.bgsel.isSome

/-- The unwritten snapshot location at which a view command is refused (R172 (a)), if there is one: the one its loop
meets first, unless a fault comes before it. A complete snapshot has none (Laws/Views.lean), so it is not searched. -/
def launchGap (w h : Nat) (pix : PixelFn Rgb) (s : State) : Option (Space × Nat) :=
  if s.snap.complete then none else (firstStop w h pix).bind Stop.gap?

/-- The state in which a view command ends once it is launched: the whole surface is written, or the first fault in
raster order is taken and the surface is unspecified (R55, R159, R166). -/
def endView (v : View) (op : Nibble) (pix : PixelFn Rgb) (s : State) : State :=
  match (firstStop v.width v.height pix).bind Stop.fault? with
  | some f => raiseFault op f (spoilSurface v s)
  | none => complete (s.setSurface v (frameOf v.width v.height pix))

/-- R158 step 7 and 8 of a view command, after its surface is found ready. -/
def renderView (v : View) (op : Nibble) (pix : PixelFn Rgb) (s : State) : Host.Outcome State Fault Refusal :=
  match launchGap v.width v.height pix s with
  | some (space, a) => .refused (.snapshotNotWritten space a)
  | none => .next (endView v op pix s)

/-- R158 step 6 before the body of a view command: `SURF_OK` is sampled once, before any snapshot read (R152). -/
def ifSurfaceReady (v : View) (op : Nibble) (body : State → Host.Outcome State Fault Refusal) (s : State) :
    Host.Outcome State Fault Refusal :=
  if s.surfOk.get v then body s else .next (raiseSurfaceError op v s)

/-- The next state of an outcome that has one. -/
def nextOf : Host.Outcome State Fault Refusal → Option State
  | .next s => some s
  | .fault _ => none
  | .refused _ => none

/-- The refusal of an outcome that has one. -/
def refusalOf : Host.Outcome State Fault Refusal → Option Refusal
  | .next _ => none
  | .fault _ => none
  | .refused r => some r

/-- The fault of an outcome that has one. -/
def faultOf : Host.Outcome State Fault Refusal → Option Fault
  | .next _ => none
  | .fault f => some f
  | .refused _ => none

end Machine
end Sys2Proof
end

