-- ==== Sys2Proof/Machine/Tile.lean ====
section
/-!
DEFINITION. The Tile Decoder (40_tile_decoder.md) and `TILE`.
-/

namespace Sys2Proof.Machine

/-- `TilePix(T, r, c)` (R80). -/
def tilePix (s : State) (t r c : Nat) : Except Stop PixVal := do
  let p0 ← s.readChr (plane0Addr t r)
  let p1 ← s.readChr (plane1Addr t r)
  return planePixel p0 p1 c

/-- `TileGrid(T, h, v)[r][c]` (R83). -/
def tileGrid (s : State) (t : Nat) (h v : Bool) (r c : Nat) : Except Stop PixVal :=
  tilePix s t (orient h v r c).1 (orient h v r c).2

/-- The `OutOfRange` of a `TILE` whose square leaves `IX`; the column is reported first (R85). -/
def tileOutOfRange (x0 y0 : Nat) : FaultInfo :=
  if 248 < x0 then outOfRange .ix x0 0 else outOfRange .ix y0 1

/-- R158 step 7 of `TILE` (R84): the bounds check before any read or write, then the 64 cells. -/
def tileBody (t : Nat) (h v : Bool) (x0 y0 : Nat) (s : State) : Host.Outcome State Fault Refusal :=
  if tileFits x0 y0 then
    match firstStop 8 8 fun c r => tileGrid s t h v r c with
    | some e => stopped opTile e s
    | none => .next (complete (s.setIx (writeSquare s.ix x0 y0 fun c r => pixelValue (tileGrid s t h v r c))))
  else .next (raiseFault opTile (tileOutOfRange x0 y0) s)

/-- `TILE` (R84). `IX` has no readiness input. -/
def execTile (t : Nat) (h v : Bool) (x0 y0 : Nat) (s : State) : Host.Outcome State Fault Refusal :=
  tileBody t h v x0 y0 s

end Sys2Proof.Machine
end

