-- ==== Sys2Proof/Machine/Resolve.lean ====
section
/-!
DEFINITION. The Palette Resolver (41_palette_resolver.md) and `RESOLVE`.
-/

namespace Sys2Proof.Machine

/-- The colour that the byte at `PAL` address `a` names: the second half of `Resolve` and of the Palette view, with the
check of R93. -/
def paletteColour (s : State) (a : Nat) : Except Stop Rgb := do
  let k ← s.readPal a
  let e ← s.readCt k.toNat a
  return entryRgb e

/-- `Resolve(g, p)` (R92). -/
def resolve (s : State) (g p : Nat) : Except Stop Rgb := paletteColour s (palAddr g p)

/-- R158 step 7 of `RESOLVE` (R94). When it faults `RGB` keeps its old value (R166). -/
def resolveBody (g p : Nat) (s : State) : Host.Outcome State Fault Refusal :=
  match resolve s g p with
  | .ok c => .next (complete (s.setRgb (c.setWidth 32)))
  | .error e => stopped opResolve e s

/-- `RESOLVE` (R94). `RGB` has no readiness input. -/
def execResolve (g p : Nat) (s : State) : Host.Outcome State Fault Refusal := resolveBody g p s

end Sys2Proof.Machine
end

