-- ==== Sys2Proof/Machine/Colours.lean ====
section
/-!
DEFINITION. The Colors and Palette views (45_colors_palette_views.md), `COLORS` and `PALETTE`.
-/

namespace Sys2Proof.Machine

/-- `ColorsPix(x, y)` (R135): no palette RAM, no mirroring (R139 (d)). -/
def colorsPix (s : State) (x y : Nat) : Except Stop Rgb := do
  let e ← s.readCt (16 * y + x) 0
  return entryRgb e

/-- `PalettePix(x, y)` (R137). -/
def palettePix (s : State) (x y : Nat) : Except Stop Rgb := paletteColour s (paletteViewAddr (16 * y + x))

/-- R158 step 7 of `COLORS` (R136). -/
def colorsBody (s : State) : Host.Outcome State Fault Refusal := renderView .colors opColors (colorsPix s) s

/-- `COLORS` (R136). -/
def execColors (s : State) : Host.Outcome State Fault Refusal := ifSurfaceReady .colors opColors colorsBody s

/-- R158 step 7 of `PALETTE` (R138). -/
def paletteBody (s : State) : Host.Outcome State Fault Refusal := renderView .palette opPalette (palettePix s) s

/-- `PALETTE` (R138). -/
def execPalette (s : State) : Host.Outcome State Fault Refusal := ifSurfaceReady .palette opPalette paletteBody s

end Sys2Proof.Machine
end

