-- ==== Sys2Proof/Machine/Nametable.lean ====
section
/-!
DEFINITION. The Nametable view (43_nametable_view.md) and `NAMETABLE`.
-/

namespace Sys2Proof.Machine

/-- The tile number of a grid cell (R111). -/
def cellTile (s : State) (b row col : Nat) : Except Stop Nat := do
  let t ← s.readNt b (gridOffset row col)
  let bg ← s.readBgsel
  return tileNumber bg.toNat t.toNat

/-- The palette group of a grid cell (R112). -/
def cellGroup (s : State) (b row col : Nat) : Except Stop Nat := do
  let attr ← s.readNt b (attrOffset s.params.ntAttrBase.val row col)
  return attrGroup attr row col

/-- `NametablePix(b, x, y)` (R113). -/
def nametablePix (s : State) (b x y : Nat) : Except Stop Rgb := do
  let t ← cellTile s b (y / 8) (x / 8)
  let g ← cellGroup s b (y / 8) (x / 8)
  let p ← tilePix s t (y % 8) (x % 8)
  resolve s g p.toNat

/-- R158 step 7 of `NAMETABLE` (R114). -/
def nametableBody (b : Nat) (s : State) : Host.Outcome State Fault Refusal :=
  renderView .nametable opNametable (nametablePix s b) s

/-- `NAMETABLE` (R114). -/
def execNametable (b : Nat) (s : State) : Host.Outcome State Fault Refusal :=
  ifSurfaceReady .nametable opNametable (nametableBody b) s

end Sys2Proof.Machine
end

