-- ==== Sys2Proof/Machine/Oam.lean ====
section
/-!
DEFINITION. The OAM / sprite view (44_oam_view.md) and `OAMVIEW`.
-/

namespace Sys2Proof.Machine

/-- The pixel at column `c`, row `r` of the tile that `tileOf` gives for the stored index of sprite `n`, under the
sprite's flips and palette group (R122, R125, R126). -/
def spritePix (s : State) (n r c : Nat) (tileOf : Byte → Nat) : Except Stop Rgb := do
  let idx ← s.readOam (oamIndexAddr n)
  let attr ← s.readOam (oamAttrAddr n)
  let p ← tileGrid s (tileOf idx) (spriteHflip attr) (spriteVflip attr) r c
  resolve s (spriteGroup attr) p.toNat

/-- `OamPix(x, y)` (R127). `BGSEL` is read only when `TALL = 0`; the lower half of an 8 by 8 sprite's cell is
`OAM_FILL` and reads nothing else. -/
def oamPix (s : State) (x y : Nat) : Except Stop Rgb := do
  let tall ← s.readTall
  if tall then spritePix s (stripSprite x y) (y % 8) (x % 8) fun idx => tallTile idx (stripHalf y)
  else if stripHalf y = 0 then
    let bg ← s.readBgsel
    spritePix s (stripSprite x y) (y % 8) (x % 8) fun idx => shortTile bg idx
  else return s.params.oamFill

/-- R158 step 7 of `OAMVIEW` (R128). -/
def oamviewBody (s : State) : Host.Outcome State Fault Refusal := renderView .oam opOamview (oamPix s) s

/-- `OAMVIEW` (R128). -/
def execOamview (s : State) : Host.Outcome State Fault Refusal := ifSurfaceReady .oam opOamview oamviewBody s

end Sys2Proof.Machine
end

