-- ==== Sys2Proof/Machine/Pattern.lean ====
section
/-!
DEFINITION. The Pattern-table view (42_pattern_view.md) and `PATTERN`.
-/

namespace Sys2Proof.Machine

/-- `PatternPix(sel, x, y)` (R103). -/
def patternPix (s : State) (sel x y : Nat) : Except Stop Rgb := do
  let p ← tilePix s (tileNumber sel (patternCell x y)) (y % 8) (x % 8)
  return gray s.params.grayRamp p

/-- R158 step 7 of `PATTERN` (R104). -/
def patternBody (sel : Nat) (s : State) : Host.Outcome State Fault Refusal :=
  renderView .pattern opPattern (patternPix s sel) s

/-- `PATTERN` (R104). -/
def execPattern (sel : Nat) (s : State) : Host.Outcome State Fault Refusal :=
  ifSurfaceReady .pattern opPattern (patternBody sel) s

end Sys2Proof.Machine
end

