-- ==== Sys2Proof/Machine/Dispatch.lean ====
section
/-!
DEFINITION. `exec`: R158 steps 6 to 8 of each command, in the state in which the command has been accepted.
-/

namespace Sys2Proof.Machine

def exec (i : Instr) (s : State) : Host.Outcome State Fault Refusal :=
  match i with
  | .tile t h v x0 y0 => Sys2Proof.Machine.execTile t h v x0 y0 s
  | .resolve g p => Sys2Proof.Machine.execResolve g p s
  | .pattern sel => Sys2Proof.Machine.execPattern sel s
  | .nametable b => Sys2Proof.Machine.execNametable b s
  | .oamview => Sys2Proof.Machine.execOamview s
  | .colors => Sys2Proof.Machine.execColors s
  | .palette => Sys2Proof.Machine.execPalette s

end Sys2Proof.Machine
end

