-- ==== Sys2Proof/Machine/Shell.lean ====
section
/-!
DEFINITION. The command shell: what a `CMD` write does (R158, R173), the rest of a command's life, reset (R170), and
the moves of the host, the Provider and the Sink (R180).
-/

namespace Sys2Proof.Machine

/-! ### The life of a command -/

/-- `Overrun`: the command in flight is abandoned, its destination is unspecified, the fault is taken (R155, R166). -/
def overrun (w : Word) (s : State) : State :=
  raiseFault (opField w) overrunInfo
    (match s.latched with
     | none => s
     | some w₀ =>
       match decode w₀ with
       | .ok i => spoilDestination i s
       | .error _ => s)

/-- `IllegalCmd`: taken after the last report is cleared and before the command is in flight (R158 step 4). -/
def illegal (w : Word) (s : State) : State := raiseFault (opField w) (illegalCmd w) (clearReport s)

/-- A `CMD` write of the word `w` whose command takes no time: R158, steps in order. -/
def cmdWrite (w : Word) (s : State) : Host.Outcome State Fault Refusal :=
  if s.status.busy then .next (overrun w s)
  else if s.status.fault then .next s
  else
    match decode w with
    | .error _ => .next (illegal w s)
    | .ok i => exec i (acceptCommand w s)

/-- R158 step 6 alone: a view command whose surface is not ready ends here; any other stays in flight (log 17). -/
def sampleSurface (i : Instr) (s : State) : State :=
  match viewOf i with
  | none => s
  | some v => if s.surfOk.get v then s else raiseSurfaceError i.opcode v s

/-- A `CMD` write of the word `w` whose command takes time: R158 steps 1 to 6. A launch on a snapshot with an unwritten
location that the command reads is accepted here and refused when the command ends: DESIGN CHOICE (log 29). -/
def cmdBegin (w : Word) (s : State) : State :=
  if s.status.busy then overrun w s
  else if s.status.fault then s
  else
    match decode w with
    | .error _ => illegal w s
    | .ok i => sampleSurface i (acceptCommand w s)

/-- R158 steps 7 and 8 of an instruction, after step 6. -/
def bodyOf (i : Instr) (s : State) : Host.Outcome State Fault Refusal :=
  match i with
  | .tile t h v x0 y0 => tileBody t h v x0 y0 s
  | .resolve g p => resolveBody g p s
  | .pattern sel => patternBody sel s
  | .nametable b => nametableBody b s
  | .oamview => oamviewBody s
  | .colors => colorsBody s
  | .palette => paletteBody s

/-- The command in flight ends; with none in flight nothing happens (R170: the block "is idle and waits"). A latched
word always decodes (`Inv`), so the illegal case is never met. -/
def finishCommand (s : State) : Host.Outcome State Fault Refusal :=
  match s.latched with
  | none => .next s
  | some w =>
    match decode w with
    | .error _ => .next (illegal w s)
    | .ok i => bodyOf i s

/-! ### Reset -/

/-- `rst` (R170, R33): registers zero, no command in flight, output spaces holding no value; the snapshot, `SURF_OK`
and the parameters untouched (R171). -/
def resetBlock (s : State) : State :=
  (((((s.setStatus .zero).setRgb 0).setFinfo .zero).setLatched none).setIx []).setSurfaces .empty

/-! ### The register window -/

/-- The offset of an aligned 32-bit access inside the register window (R27, R46). Alignment is measured from the base of
the window, and `REG_BASE` may be any address: DESIGN CHOICE (log 28). -/
def registerOffset (s : State) (addr bytes : Nat) : Option Nat :=
  if s.params.regBase ≤ addr ∧ addr - s.params.regBase ∈ [0x0, 0x4, 0x8, 0xC] ∧ bytes = 4 then
    some (addr - s.params.regBase)
  else none

/-- A host write to the register window. `CMD` issues the command (R22); `STATUS` ignores the write (R23), and so do
the read-only `RGB` and `FINFO` (R25, R26; log 10). -/
def hostWrite (addr bytes : Nat) (v : Word) (s : State) : Host.Outcome State Fault Refusal :=
  match registerOffset s addr bytes with
  | none => .refused (.registerAccess addr bytes)
  | some 0x0 => cmdWrite v s
  | some _ => .next s

/-- The value the host reads at an offset of the register window: `CMD` reads 0 (R22). While a command is in flight
`RGB` reads a free value (R51, U7; log 11). -/
def readRegister (s : State) (offset : Nat) : Word :=
  if offset = 0x0 then 0
  else if offset = 0x4 then s.status.word
  else if offset = 0x8 then if s.status.busy then (Config.freeRgb s.freeIndex).setWidth 32 else s.rgb
  else s.finfo.word

/-- What is drawn by a read of the register at `offset`: a free value only for `RGB` in flight. -/
def afterRegisterRead (s : State) (offset : Nat) : State :=
  if offset = 0x8 ∧ s.status.busy then s.drawFree else s

/-- A host read of the register window. No read has a side effect on the block (R47). -/
def hostRead (addr bytes : Nat) (s : State) : Host.Outcome State Fault Refusal :=
  match registerOffset s addr bytes with
  | none => .refused (.registerAccess addr bytes)
  | some offset => .next ((afterRegisterRead s offset).setReadData (readRegister s offset))

/-! ### Reads of the output spaces -/

/-- A read of one location of an output space of size `size` (R40): only while `BUSY = 0` (R51), and never a value for
a location that holds none (R34). -/
def readOutput {w : Nat} (space : Space) (m : Memory w) (inside : Bool) (a : Nat) (s : State) :
    Host.Outcome State Fault Refusal :=
  if s.status.busy then .refused .outputReadWhileBusy
  else if inside then
    match m.read a with
    | some v => .next (s.setReadData (v.setWidth 32))
    | none => .fault (.readOfNoValue space a)
  else .fault (.noSuchLocation space a)

/-- The host reads cell `(x, y)` of `IX` (R19). -/
def readIx (x y : Nat) (s : State) : Host.Outcome State Fault Refusal :=
  readOutput .ix s.ix (decide (x < 256) && decide (y < 240)) (ixKey x y) s

/-- The host or the Sink reads byte `a` of the surface of `v` (R40). -/
def readSurface (v : View) (a : Nat) (s : State) : Host.Outcome State Fault Refusal :=
  readOutput .surface (s.surface v) (decide (a < v.bytes)) a s

/-! ### The Provider and the Sink -/

/-- A Provider write: only while `BUSY = 0` (R176), and only to a location that exists (R40). -/
def provide (space : Space) (inside : Bool) (a : Nat) (snap : Snapshot) (s : State) :
    Host.Outcome State Fault Refusal :=
  if s.status.busy then .refused .snapshotWriteWhileBusy
  else if inside then .next (s.setSnap snap)
  else .fault (.noSuchLocation space a)

/-- What one event does, after it has left the list of inputs. -/
def applyEvent (e : Event) (s : State) : Host.Outcome State Fault Refusal :=
  match e with
  | .cmd w => cmdWrite w s
  | .cmdBegin w => .next (cmdBegin w s)
  | .finish => finishCommand s
  | .hostWrite addr bytes v => hostWrite addr bytes v s
  | .hostRead addr bytes => hostRead addr bytes s
  | .readIx x y => readIx x y s
  | .readSurface v a => readSurface v a s
  | .rst => .next (resetBlock s)
  | .provideCt k v => provide .ct (decide (k < 64)) k { s.snap with ct := s.snap.ct.write k v } s
  | .providePal a v => provide .pal (decide (a < 32)) a { s.snap with pal := s.snap.pal.write a v } s
  | .provideChr a v => provide .chr (decide (a < 8192)) a { s.snap with chr := s.snap.chr.write a v } s
  | .provideNt b o v =>
    provide .nt (decide (b < 4) && decide (o < 2048)) (ntKey b o) { s.snap with nt := s.snap.nt.write (ntKey b o) v } s
  | .provideOam a v => provide .oam (decide (a < 256)) a { s.snap with oam := s.snap.oam.write a v } s
  | .provideTall v => provide .tall true 0 { s.snap with tall := some v } s
  | .provideBgsel v => provide .bgsel true 0 { s.snap with bgsel := some v } s
  | .driveSurfOk v ok => .next (s.setSurfOk (s.surfOk.set v ok))

/-- The next move: the first event of the list. With no event to come a command in flight ends (R182: every accepted
command ends) and an idle block waits (R170; log 18). -/
def nextMove (s : State) : Host.Outcome State Fault Refusal :=
  match s.inputs with
  | [] => finishCommand s
  | e :: rest => applyEvent e (s.setInputs rest)

/-- A program of R72: the host writes the words in order, each after the last command has ended (R181). -/
def programEvents (p : List Instr) : List Event := p.map fun i => .cmd (encode i)

/-! ### A launch -/

/-- Every location of a space of `n` locations: what was written keeps its value, the rest are 0. -/
def launchFill {w : Nat} (n : Nat) (m : Memory w) : Memory w := .tabulate n fun a => (m.read a).getD 0

/-- The premise of a launch (R172 (a)): the Provider has written every snapshot location. The locations it has not
written are given 0, DESIGN CHOICE (log 5); no step and no statement about a step uses this. -/
def launchSnapshot (snap : Snapshot) : Snapshot :=
  { ct := launchFill 64 snap.ct, pal := launchFill 32 snap.pal, chr := launchFill 8192 snap.chr,
    nt := launchFill 8192 snap.nt, oam := launchFill 256 snap.oam, tall := some (snap.tall.getD false),
    bgsel := some (snap.bgsel.getD 0) }

/-- A launch of one command word: the snapshot is complete and the host's next move is the `CMD` write of the word. -/
def launchWord (w : Word) (s : State) : State :=
  (s.setSnap (launchSnapshot s.snap)).setInputs (.cmd w :: s.inputs)

end Sys2Proof.Machine
end

