-- ==== Sys2Proof/Machine/Step.lean ====
section
/-!
DEFINITION. One step of the machine: the next move of an agent (Machine/Shell.lean).
-/

namespace Sys2Proof.Machine

/-- One step. -/
def step (s : State) : Host.Outcome State Fault Refusal := nextMove s

/-- The state in which the very next step runs the instruction whose word is `w`: a launch (R172), since the block
fetches nothing (R53) and takes its words from the host's `CMD` writes (log 5). -/
def State.withFetchWord (s : State) (nbits w : Nat) : State := launchWord (BitVec.ofNat 32 (w % 2 ^ nbits)) s

end Sys2Proof.Machine
end

