-- ==== Sys2Proof/Safety.lean ====
section
/-!
DEFINITION. What a claim may call a good state and a safe run.
-/

namespace Sys2Proof.Machine

/-- No fault is on record: a run that ends otherwise "has gone wrong" (R181). -/
def State.healthy (s : State) : Bool := !s.status.fault

/-- Every memory is in canonical form and inside its space (R40). -/
def State.memoriesOk (s : State) : Prop :=
  (s.snap.ct.wf ∧ s.snap.ct.below 64) ∧ (s.snap.pal.wf ∧ s.snap.pal.below 32) ∧
  (s.snap.chr.wf ∧ s.snap.chr.below 8192) ∧ (s.snap.nt.wf ∧ s.snap.nt.below 8192) ∧
  (s.snap.oam.wf ∧ s.snap.oam.below 256) ∧ (s.ix.wf ∧ s.ix.below 61440) ∧
  ∀ v, (s.surface v).wf ∧ (s.surface v).below v.bytes

/-- `BUSY = 1` exactly while a word is latched, and that word is a command (R31, R173). -/
def State.latchOk (s : State) : Prop :=
  (s.status.busy = s.latched.isSome) ∧ ∀ w, s.latched = some w → ∃ i, decode w = .ok i

/-- The relations of R23 between the flags and the report: `BUSY` and `DONE` are never both 1; `FAULT = 1` implies
`BUSY = 0`; a fault has a fault's code and no `SURF`; a surface error has code 2; with neither, nothing is reported. -/
def State.reportOk (s : State) : Prop :=
  ¬(s.status.busy = true ∧ s.status.done = true) ∧
  (s.status.fault = true → s.status.busy = false ∧ s.status.surf = false ∧ s.status.code ∈ [1#4, 4#4, 5#4]) ∧
  (s.status.surf = true → s.status.busy = false ∧ s.status.code = 2#4 ∧ s.finfo.space = 8#4) ∧
  (s.status.fault = false → s.status.surf = false → s.status.code = 0#4 ∧ s.status.op = 0#4 ∧ s.finfo = .zero)

/-- Bits 31:24 of `RGB` read as 0 (R25). -/
def State.rgbOk (s : State) : Prop := s.rgb.toNat < 2 ^ 24

/-- What holds in every state a run can reach from `State.reset`. -/
def State.Inv (s : State) : Prop := s.memoriesOk ∧ s.latchOk ∧ s.reportOk ∧ s.rgbOk

end Sys2Proof.Machine
end

