-- ==== Sys2Proof/Certificates/Slice0/Obligations.lean ====
section
/-!
DEFINITION. The statements about this machine, and the vocabulary they are written in: what the spec's rules say of the
bytes in the memories, and what an ending command leaves unchanged.
-/

namespace Sys2Proof.Claims

open Sys2Proof.Machine

/-! ### The rules in terms of the bytes in the memories -/

/-- The pixel value of tile `t` at row `r`, column `c` is `p`: bit 0 from plane 0, bit 1 from plane 1, column 0 being
bit 7 of the row byte (R80). -/
def TilePixelIs (s : State) (t r c : Nat) (p : PixVal) : Prop :=
  ∃ p0 p1 : Byte, s.snap.chr.read (16 * t + r) = some p0 ∧ s.snap.chr.read (16 * t + 8 + r) = some p1 ∧
    p.getLsbD 0 = p0.getLsbD (7 - c) ∧ p.getLsbD 1 = p1.getLsbD (7 - c)

/-- The `PAL` address of a palette group and a pixel value (R90). -/
def groupAddr (g p : Nat) : Nat := if p = 0 then 0 else 4 * g + p

/-- The byte at `PAL` address `a` names the colour `c` (R92). -/
def ColourAt (s : State) (a : Nat) (c : Rgb) : Prop :=
  ∃ (k : Byte) (e : Word), s.snap.pal.read a = some k ∧ k.toNat < 64 ∧ s.snap.ct.read k.toNat = some e ∧
    c = e.extractLsb' 0 24

/-- The byte at `PAL` address `a` is `k` and is no Color Table index (R93). -/
def BadByteAt (s : State) (a : Nat) (k : Byte) : Prop := s.snap.pal.read a = some k ∧ 64 ≤ k.toNat

/-- R103 with R102. -/
def PatternPixelIs (s : State) (sel x y : Nat) (c : Rgb) : Prop :=
  ∃ (p : PixVal) (i : Byte), TilePixelIs s (256 * sel + (y / 8 * 16 + x / 8)) (y % 8) (x % 8) p ∧
    s.params.grayRamp[p.toNat]? = some i ∧ c = i ++ i ++ i

/-- The tile number and the palette group of the cell under pixel `(x, y)` of bank `b` (R111, R112). -/
def NametableCell (s : State) (b x y t g : Nat) : Prop :=
  ∃ (idx attr : Byte) (bg : BitVec 1),
    s.snap.nt.read (2048 * b + (y / 8 * 32 + x / 8)) = some idx ∧ s.snap.bgsel = some bg ∧
    s.snap.nt.read (2048 * b + (s.params.ntAttrBase.val + y / 8 / 4 * 8 + x / 8 / 4)) = some attr ∧
    t = 256 * bg.toNat + idx.toNat ∧ g = attr.toNat / 2 ^ (y / 8 / 2 % 2 * 4 + x / 8 / 2 % 2 * 2) % 4

/-- The `PAL` address the pixel `(x, y)` of bank `b` uses (R113). -/
def NametableUses (s : State) (b x y a : Nat) : Prop :=
  ∃ t g p, NametableCell s b x y t g ∧ TilePixelIs s t (y % 8) (x % 8) p ∧ a = groupAddr g p.toNat

/-- R113. -/
def NametablePixelIs (s : State) (b x y : Nat) (c : Rgb) : Prop := ∃ a, NametableUses s b x y a ∧ ColourAt s a c

/-- The tile, the flips and the palette group of the sprite under pixel `(x, y)` of the strip (R121 to R124). -/
def StripTile (s : State) (x y t : Nat) (h v : Bool) (g : Nat) : Prop :=
  ∃ idx attr : Byte,
    s.snap.oam.read (4 * (y / 16 * 32 + x / 8) + 1) = some idx ∧
    s.snap.oam.read (4 * (y / 16 * 32 + x / 8) + 2) = some attr ∧
    v = attr.getLsbD 7 ∧ h = attr.getLsbD 6 ∧ g = 4 + attr.toNat % 4 ∧
    ((s.snap.tall = some true ∧ t = 256 * (idx.toNat % 2) + (idx.toNat / 2 * 2 + y % 16 / 8)) ∨
      (s.snap.tall = some false ∧ y % 16 < 8 ∧ ∃ bg : BitVec 1, s.snap.bgsel = some bg ∧
        t = 256 * (1 - bg.toNat) + idx.toNat))

/-- The `PAL` address the pixel `(x, y)` of the strip uses (R125 to R127). -/
def OamUses (s : State) (x y a : Nat) : Prop :=
  ∃ t h v g p, StripTile s x y t h v g ∧
    TilePixelIs s t (if v then 7 - y % 8 else y % 8) (if h then 7 - x % 8 else x % 8) p ∧ a = groupAddr g p.toNat

/-- R127. -/
def OamPixelIs (s : State) (x y : Nat) (c : Rgb) : Prop :=
  (∃ a, OamUses s x y a ∧ ColourAt s a c) ∨ (s.snap.tall = some false ∧ 8 ≤ y % 16 ∧ c = s.params.oamFill)

/-- R135. -/
def ColorsPixelIs (s : State) (x y : Nat) (c : Rgb) : Prop :=
  ∃ e : Word, s.snap.ct.read (16 * y + x) = some e ∧ c = e.extractLsb' 0 24

/-- The `PAL` address of entry `i` of the Palette view (R137). -/
def paletteAddr (i : Nat) : Nat := if i % 4 = 0 then 0 else i

/-- R137. -/
def PalettePixelIs (s : State) (x y : Nat) (c : Rgb) : Prop := ColourAt s (paletteAddr (16 * y + x)) c

/-- Location `a` of the snapshot space `sp` exists and nothing has written it (R18). -/
def Unwritten (s : State) (sp : Space) (a : Nat) : Prop :=
  match sp with
  | .ct => a < 64 ∧ s.snap.ct.read a = none
  | .pal => a < 32 ∧ s.snap.pal.read a = none
  | .chr => a < 8192 ∧ s.snap.chr.read a = none
  | .nt => a < 8192 ∧ s.snap.nt.read a = none
  | .oam => a < 256 ∧ s.snap.oam.read a = none
  | .tall => s.snap.tall = none
  | .bgsel => s.snap.bgsel = none
  | .none | .ix | .command | .surface => False

/-! ### Surfaces -/

/-- The surface `m`, `w` pixels wide and `h` high, shows the picture `is`: red, green, blue at `3 * (y * w + x)` (R44),
and it holds nothing past its last byte. -/
def Shows (m : Memory 8) (w h : Nat) (is : Nat → Nat → Rgb → Prop) : Prop :=
  (∀ x < w, ∀ y < h, ∀ c, is x y c →
    m.read (3 * (y * w + x)) = some (c.extractLsb' 16 8) ∧ m.read (3 * (y * w + x) + 1) = some (c.extractLsb' 8 8) ∧
      m.read (3 * (y * w + x) + 2) = some (c.extractLsb' 0 8)) ∧
  ∀ a, 3 * (w * h) ≤ a → m.read a = none

/-! ### How a command ends and what it leaves alone -/

/-- What no command of the block touches: the snapshot, the inputs and parameters, the moves to come, the reader's
data. -/
def KeepsOutside (s t : State) : Prop :=
  t.snap = s.snap ∧ t.surfOk = s.surfOk ∧ t.params = s.params ∧ t.inputs = s.inputs ∧ t.readData = s.readData

/-- Normal completion (R158 step 8): `BUSY` and `DONE`, no other flag, not `FINFO`. -/
def EndsNormally (s t : State) : Prop :=
  t.status = { s.status with busy := false, done := true } ∧ t.finfo = s.finfo ∧ t.latched = none ∧
  t.freeIndex = s.freeIndex

/-- Fault entry (R156), with `FINFO` as R26 lays it out. -/
def EndsWithFault (t : State) (code op space : Nibble) (index aux : Nat) : Prop :=
  t.status = { busy := false, done := true, fault := true, surf := false, code := code, op := op } ∧
  t.finfo = { index := BitVec.ofNat 16 index, space := space, aux := BitVec.ofNat 8 aux } ∧ t.latched = none

/-- Beside the surface of `v`, no output changed. -/
def KeepsOtherOutputs (v : View) (s t : State) : Prop :=
  t.ix = s.ix ∧ t.rgb = s.rgb ∧ ∀ u, u ≠ v → t.surface u = s.surface u

/-- No output location changed. -/
def KeepsOutputs (s t : State) : Prop := t.ix = s.ix ∧ t.rgb = s.rgb ∧ ∀ u, t.surface u = s.surface u

/-- A view command whose surface is ready and whose pixels all have a colour completes, and its surface shows them. -/
def RendersView (i : Instr) (v : View) (w h : Nat) (is : State → Nat → Nat → Rgb → Prop) : Prop :=
  ∀ s : State, s.surfOk.get v = true → (∀ x < w, ∀ y < h, ∃ c, is s x y c) →
    ∃ t, exec i s = .next t ∧ Shows (t.surface v) w h (is s) ∧ EndsNormally s t ∧ KeepsOutside s t ∧
      KeepsOtherOutputs v s t

/-- A view command whose first pixel without a colour, in raster order, uses a bad palette byte `k` at address `a`
takes `OutOfRange` for that pixel (R93, R159, R166). -/
def FaultsAtFirstBadByte (i : Instr) (op : Nibble) (v : View) (w h : Nat) (is : State → Nat → Nat → Rgb → Prop)
    (uses : State → Nat → Nat → Nat → Prop) : Prop :=
  ∀ (s : State) (x y a : Nat) (k : Byte), s.surfOk.get v = true → s.status.fault = false → x < w → y < h →
    uses s x y a → BadByteAt s a k → (∀ x' < w, ∀ y' < h, y' * w + x' < y * w + x → ∃ c, is s x' y' c) →
    ∃ t, exec i s = .next t ∧ EndsWithFault t 1 op 1 k.toNat a ∧ KeepsOutside s t ∧ KeepsOtherOutputs v s t

/-- The outcome with `f` applied to the next state. -/
def mapNext (f : State → State) : Host.Outcome State Fault Refusal → Host.Outcome State Fault Refusal
  | .next t => .next (f t)
  | .fault r => .fault r
  | .refused r => .refused r

/-- The state with another byte at one location of a snapshot space. -/
def pokeCt (k : Nat) (e : Word) (s : State) : State := s.setSnap { s.snap with ct := s.snap.ct.write k e }
def pokePal (a : Nat) (v : Byte) (s : State) : State := s.setSnap { s.snap with pal := s.snap.pal.write a v }
def pokeNt (b o : Nat) (v : Byte) (s : State) : State :=
  s.setSnap { s.snap with nt := s.snap.nt.write (2048 * b + o) v }
def pokeOam (a : Nat) (v : Byte) (s : State) : State := s.setSnap { s.snap with oam := s.snap.oam.write a v }

/-- Location `a` reads as `v` after, and every other location reads as before. -/
def Replaces {w : Nat} (m m' : Memory w) (a : Nat) (v : BitVec w) : Prop :=
  m'.read a = some v ∧ ∀ a', a' ≠ a → m'.read a' = m.read a'

/-- The host writes the word `w` to `CMD`, as a command that takes no time or as one that takes time. -/
def IsCmdWrite (e : Event) (w : Word) : Prop := e = .cmd w ∨ e = .cmdBegin w

end Sys2Proof.Claims

open Sys2Proof Sys2Proof.Machine Sys2Proof.Claims

/-! ### Reset -/

/-- Formalises R33 for the state after power-up. That `State.reset` has nothing written by the Provider, every surface
ready and the default parameters is the model's choice (log 3, 4, 6), and nothing here claims it. -/
def Obligations.PowerUpHoldsTheResetValues : Prop :=
  State.reset.status.word = 0 ∧ State.reset.rgb = 0 ∧ State.reset.finfo.word = 0 ∧ State.reset.latched = none ∧
  (∀ a, State.reset.ix.read a = none) ∧ ∀ v a, (State.reset.surface v).read a = none

/-- R33, R170 and R171: reset, at any time. That `rst` leaves the model's own `inputs` and `readData` alone is the model's
choice (log 25). -/
def Obligations.ResetClearsTheBlockOnly : Prop :=
  ∀ (s : State) (rest : List Event), s.inputs = .rst :: rest →
    ∃ t, step s = .next t ∧ t.status.word = 0 ∧ t.rgb = 0 ∧ t.finfo.word = 0 ∧ t.latched = none ∧
      (∀ a, t.ix.read a = none) ∧ (∀ v a, (t.surface v).read a = none) ∧
      t.snap = s.snap ∧ t.surfOk = s.surfOk ∧ t.params = s.params ∧ t.inputs = rest ∧ t.readData = s.readData

/-- 70_reset_and_hazards.md section 1: the block "is idle and waits". That a step of an idle machine changes nothing is
the model's choice (log 18). -/
def Obligations.IdleBlockWaits : Prop :=
  ∀ s : State, s.inputs = [] → s.latched = none → step s = .next s

/-! ### Decoding -/

/-- Decoding an encoded well-formed instruction gives it back (R62 to R66, R70). -/
def Obligations.DecodeInvertsEncode : Prop :=
  ∀ i : Instr, i.wellFormed = true → decode (encode i) = .ok i

/-- A word that decodes is the encoding of a well-formed instruction: no word has two meanings. -/
def Obligations.EncodeInvertsDecode : Prop :=
  ∀ (w : Word) (i : Instr), decode w = .ok i → i.wellFormed = true ∧ encode i = w

/-- Formalises R69: every word is exactly one of the seven commands, or illegal. -/
def Obligations.EveryWordIsOneCommandOrIllegal : Prop :=
  ∀ w : Word, (opcodeTable.filter (·.accepts w)).length ≤ 1 ∧
    ((∃ i, decode w = .ok i) ↔ ∃ r ∈ opcodeTable, r.accepts w = true)

/-- Formalises R74, line by line. -/
def Obligations.DecodeFollowsTheDecodingRule : Prop :=
  ∀ w : Word, (decode w).toOption =
    if w.extractLsb' 28 4 = 1#4 ∧ w.getLsbD 27 = false then
      some (.tile (w.toNat % 512) (w.getLsbD 9) (w.getLsbD 10) (w.toNat / 2 ^ 11 % 256) (w.toNat / 2 ^ 19 % 256))
    else if w.extractLsb' 28 4 = 2#4 ∧ w.extractLsb' 5 23 = 0#23 then
      some (.resolve (w.toNat / 4 % 8) (w.toNat % 4))
    else if w.extractLsb' 28 4 = 3#4 ∧ w.extractLsb' 1 27 = 0#27 then some (.pattern (w.toNat % 2))
    else if w.extractLsb' 28 4 = 4#4 ∧ w.extractLsb' 2 26 = 0#26 then some (.nametable (w.toNat % 4))
    else if w = 0x50000000#32 then some .oamview
    else if w = 0x60000000#32 then some .colors
    else if w = 0x70000000#32 then some .palette
    else none

/-- Words written out by 95_test_vectors.md section 2.1 decode to the instructions it names. -/
def Obligations.WrittenOutWordsDecode : Prop :=
  decode 0x10408305 = .ok (.tile 0x105 true false 16 8) ∧ decode 0x1747C7FF = .ok (.tile 511 true true 248 232) ∧
  decode 0x20000016 = .ok (.resolve 5 2) ∧ decode 0x30000001 = .ok (.pattern 1) ∧
  decode 0x40000003 = .ok (.nametable 3) ∧ decode 0x50000000 = .ok .oamview ∧ decode 0x60000000 = .ok .colors ∧
  decode 0x70000000 = .ok .palette ∧ decode 0x18000000 = .error .reserved ∧ decode 0x00000000 = .error .opcode

/-! ### The `CMD` write -/

/-- R158 steps 1 to 5: a write of a command word to an idle, healthy block executes the command in the state in which
`DONE`, `SURF`, `CODE`, `OP` and `FINFO` are cleared, `BUSY` is set and the word is latched. -/
def Obligations.StepRunsTheDecodedCommand : Prop :=
  ∀ (s : State) (w : Word) (rest : List Event) (i : Instr), s.inputs = .cmd w :: rest → s.status.busy = false →
    s.status.fault = false → decode w = .ok i →
    step s = exec i { s with
      inputs := rest, finfo := { index := 0, space := 0, aux := 0 }, latched := some w,
      status := { busy := true, done := false, fault := false, surf := false, code := 0, op := 0 } }

/-- R173: a command that takes time is in flight, with `BUSY = 1`, after the write. That `SURF_OK` has been sampled by then
is log 17 (DEDUCED, unsafe). That the write is accepted also when the command reads an unwritten snapshot location is the
model's choice (log 29); R172 (a) has a model refuse such a launch. -/
def Obligations.TimedCommandIsInFlight : Prop :=
  ∀ (s : State) (w : Word) (rest : List Event) (i : Instr), s.inputs = .cmdBegin w :: rest → s.status.busy = false →
    s.status.fault = false → decode w = .ok i → (∀ v, viewOf i = some v → s.surfOk.get v = true) →
    step s = .next { s with
      inputs := rest, finfo := { index := 0, space := 0, aux := 0 }, latched := some w,
      status := { busy := true, done := false, fault := false, surf := false, code := 0, op := 0 } }

/-- R173: "The final state is the same either way". A command that takes time ends as the one that takes none.
That with an unwritten snapshot location the timed write answers a next state and the refusal comes at the end is the
model's choice (log 29). -/
def Obligations.TimedCommandEndsAsTheAtomicOne : Prop :=
  ∀ (s : State) (w : Word) (rest : List Event), s.status.busy = false → s.latched = none →
    ∃ u, step (s.setInputs (.cmdBegin w :: .finish :: rest)) = .next u ∧ step u = step (s.setInputs (.cmd w :: rest))

/-- R152: `SURF_OK` is sampled once, at the start. Whatever the Sink drives while a command is in flight, the command
ends alike, by `.finish` or with no event to come. It leans on log 17 (DEDUCED, unsafe: `SURF_OK` is sampled at the `CMD`
write) and, for a command that ends with no event to come, on log 18. -/
def Obligations.ReadinessIsSampledAtTheStart : Prop :=
  ∀ (s : State) (w : Word) (i : Instr) (o : SurfOk) (rest : List Event), (s.inputs = [] ∨ s.inputs = .finish :: rest) →
    s.latched = some w → decode w = .ok i →
    step (s.setSurfOk o) = mapNext (·.setSurfOk o) (step s)

/-- Formalises R154: an illegal word. No snapshot space is read: with any other snapshot the same happens. -/
def Obligations.IllegalWordTakesIllegalCmd : Prop :=
  ∀ (s : State) (e : Event) (w : Word) (rest : List Event), IsCmdWrite e w → s.inputs = e :: rest →
    s.status.busy = false → s.status.fault = false → (∀ r ∈ opcodeTable, r.accepts w = false) →
    ∃ t, step s = .next t ∧ EndsWithFault t 4 (w.extractLsb' 28 4) 7 (w.toNat % 65536) (w.toNat / 2 ^ 20 % 256) ∧
      KeepsOutputs s t ∧ KeepsOutside (s.setInputs rest) t ∧ t.freeIndex = s.freeIndex ∧
      ∀ n, step (s.setSnap n) = .next (t.setSnap n)

/-- Formalises R155: a `CMD` write while a command is in flight. The destination of the command in flight is
unspecified, so nothing is said of it; everything else is unchanged (R166). -/
def Obligations.WriteWhileBusyTakesOverrun : Prop :=
  ∀ (s : State) (e : Event) (w w₀ : Word) (rest : List Event) (i : Instr), IsCmdWrite e w → s.inputs = e :: rest →
    s.status.busy = true → s.status.fault = false → s.latched = some w₀ → decode w₀ = .ok i →
    ∃ t, step s = .next t ∧ EndsWithFault t 5 (w.extractLsb' 28 4) 0 0 0 ∧ t.finfo.word = 0 ∧
      KeepsOutside (s.setInputs rest) t ∧ (∀ v, viewOf i ≠ some v → t.surface v = s.surface v) ∧
      ((∀ g p, i ≠ .resolve g p) → t.rgb = s.rgb) ∧
      ∀ a, (∀ n h v x0 y0, i = .tile n h v x0 y0 → ∀ c < 8, ∀ r < 8, a ≠ 256 * (y0 + r) + (x0 + c)) →
        t.ix.read a = s.ix.read a

/-- Formalises R160: while a fault stands, every `CMD` write is ignored, and no move but reset changes the fault
fields. -/
def Obligations.FaultStandsUntilReset : Prop :=
  ∀ s : State, s.status.fault = true → s.status.busy = false → s.latched = none →
    (∀ e w rest, IsCmdWrite e w → s.inputs = e :: rest → step s = .next (s.setInputs rest)) ∧
    ∀ t, s.inputs.head? ≠ some .rst → step s = .next t → t.status = s.status ∧ t.finfo = s.finfo

/-! ### `TILE` -/

/-- R84 with R80 to R83 and R55: a square inside `IX` whose tile is written completes. Its 64 cells hold the pixel
values of the tile under the flips; every other cell is unchanged. -/
def Obligations.TileWritesItsSquare : Prop :=
  ∀ (n : Nat) (h v : Bool) (x0 y0 : Nat) (s : State), (Instr.tile n h v x0 y0).wellFormed = true → x0 ≤ 248 →
    y0 ≤ 232 → (∀ k < 16, ∃ b, s.snap.chr.read (16 * n + k) = some b) →
    ∃ t, exec (.tile n h v x0 y0) s = .next t ∧
      (∀ r < 8, ∀ c < 8, ∃ p, t.ix.read (256 * (y0 + r) + (x0 + c)) = some p ∧
        TilePixelIs s n (if v then 7 - r else r) (if h then 7 - c else c) p) ∧
      (∀ a, (∀ r < 8, ∀ c < 8, a ≠ 256 * (y0 + r) + (x0 + c)) → t.ix.read a = s.ix.read a) ∧
      EndsNormally s t ∧ KeepsOutside s t ∧ t.rgb = s.rgb ∧ ∀ u, t.surface u = s.surface u

/-- Formalises R85: a square that leaves `IX` faults and writes nothing, the column being reported before the row. No
`CHR` byte is read: with any other snapshot the same happens. -/
def Obligations.TileOutsideIxFaults : Prop :=
  ∀ (n : Nat) (h v : Bool) (x0 y0 : Nat) (s : State), (Instr.tile n h v x0 y0).wellFormed = true →
    s.status.fault = false → (256 ≤ x0 + 7 ∨ 240 ≤ y0 + 7) →
    ∃ t, exec (.tile n h v x0 y0) s = .next t ∧
      (248 < x0 → EndsWithFault t 1 1 6 x0 0) ∧ (x0 ≤ 248 → EndsWithFault t 1 1 6 y0 1) ∧
      KeepsOutputs s t ∧ KeepsOutside s t ∧ t.freeIndex = s.freeIndex ∧
      ∀ m, exec (.tile n h v x0 y0) (s.setSnap m) = .next (t.setSnap m)

/-- Formalises R82: the flips are the stated ones, and each is its own inverse. -/
def Obligations.OrientFlipsRowsAndColumns : Prop :=
  ∀ h v : Bool, ∀ r < 8, ∀ c < 8,
    orient h v r c = (if v then 7 - r else r, if h then 7 - c else c) ∧
    (orient h v r c).1 < 8 ∧ (orient h v r c).2 < 8 ∧
    orient h v (orient h v r c).1 (orient h v r c).2 = (r, c)

/-- Formalises R80: the pixel value formula, bit by bit. -/
def Obligations.PixelBitsComeFromThePlanes : Prop :=
  ∀ (s : State) (n r c : Nat) (p : PixVal), n < 512 → r < 8 → c < 8 →
    (tilePix s n r c = .ok p ↔ TilePixelIs s n r c p)

/-! ### `RESOLVE` -/

/-- Formalises R90: group 0's slot 0 for pixel value 0, the group's own slot otherwise, never slot 0 of another
group. -/
def Obligations.PaletteAddressRule : Prop :=
  ∀ g < 8, ∀ p < 4, (p = 0 → palAddr g p = 0) ∧ (p ≠ 0 → palAddr g p = 4 * g + p) ∧ palAddr g p < 32 ∧
    palAddr g p ∉ [4, 8, 12, 16, 20, 24, 28]

/-- R94 with R92: a resolvable pair leaves its colour in `RGB`, bits 31:24 being 0, and changes no other output. -/
def Obligations.ResolveLeavesTheColour : Prop :=
  ∀ (g p : Nat) (s : State) (c : Rgb), (Instr.resolve g p).wellFormed = true → ColourAt s (groupAddr g p) c →
    ∃ t, exec (.resolve g p) s = .next t ∧ t.rgb = c.setWidth 32 ∧ EndsNormally s t ∧ KeepsOutside s t ∧
      t.ix = s.ix ∧ ∀ u, t.surface u = s.surface u

/-- Formalises R93 for `RESOLVE`: a palette byte of 64 or more faults, is not masked, and `RGB` keeps its value
(R166). -/
def Obligations.ResolveOfABadByteFaults : Prop :=
  ∀ (g p : Nat) (s : State) (k : Byte), (Instr.resolve g p).wellFormed = true → s.status.fault = false →
    BadByteAt s (groupAddr g p) k →
    ∃ t, exec (.resolve g p) s = .next t ∧ EndsWithFault t 1 2 1 k.toNat (groupAddr g p) ∧ KeepsOutputs s t ∧
      KeepsOutside s t ∧ t.freeIndex = s.freeIndex

/-- R95 (a): pixel value 0 resolves alike in every group. -/
def Obligations.PixelZeroIgnoresTheGroup : Prop :=
  ∀ (g g' : Nat) (s : State), exec (.resolve g 0) s = exec (.resolve g' 0) s

/-! ### The views -/

/-- R104 with R103 and R102. -/
def Obligations.PatternRendersItsTable : Prop :=
  ∀ sel, (Instr.pattern sel).wellFormed = true →
    RendersView (.pattern sel) .pattern 128 128 fun s => PatternPixelIs s sel

/-- R114 with R111 to R113. -/
def Obligations.NametableRendersItsBank : Prop :=
  ∀ b, (Instr.nametable b).wellFormed = true →
    RendersView (.nametable b) .nametable 256 240 fun s => NametablePixelIs s b

/-- R128 with R121 to R127. -/
def Obligations.OamviewRendersTheStrip : Prop := RendersView .oamview .oam 256 32 OamPixelIs

/-- R136 with R135. -/
def Obligations.ColorsRendersTheTable : Prop := RendersView .colors .colors 16 4 ColorsPixelIs

/-- R138 with R137. -/
def Obligations.PaletteRendersPaletteRam : Prop := RendersView .palette .palette 16 2 PalettePixelIs

/-- R116: the first bad palette byte in raster order is the fault of `NAMETABLE`. That the fault is taken also where a
location later in the loop is unwritten is log 22 (DEDUCED, unsafe in that corner). -/
def Obligations.NametableFaultsAtItsFirstBadByte : Prop :=
  ∀ b, (Instr.nametable b).wellFormed = true →
    FaultsAtFirstBadByte (.nametable b) 4 .nametable 256 240 (fun s => NametablePixelIs s b)
      fun s => NametableUses s b

/-- R128 with R159: the first bad palette byte in raster order is the fault of `OAMVIEW`. That the fault is taken also where
a location later in the loop is unwritten is log 22 (DEDUCED, unsafe in that corner). -/
def Obligations.OamviewFaultsAtItsFirstBadByte : Prop :=
  FaultsAtFirstBadByte .oamview 5 .oam 256 32 OamPixelIs OamUses

/-- R138 with R159: the first bad palette byte in raster order is the fault of `PALETTE`. That the fault is taken also where
a location later in the loop is unwritten is log 22 (DEDUCED, unsafe in that corner). -/
def Obligations.PaletteFaultsAtItsFirstBadByte : Prop :=
  FaultsAtFirstBadByte .palette 7 .palette 16 2 PalettePixelIs fun _ x y a => a = paletteAddr (16 * y + x)

/-- R137: the Palette view shows the resolver's colour of group `i / 4`, pixel value `i % 4`. -/
def Obligations.PaletteViewResolvesEachEntry : Prop :=
  ∀ (s : State), ∀ x < 16, ∀ y < 2, palettePix s x y = resolve s ((16 * y + x) / 4) ((16 * y + x) % 4)

/-- R117 (b), for `NT_ATTR_BASE = 960`: changing bits 1:0 of the first attribute byte changes no pixel but those of the
top-left 16 by 16 square whose pixel value is not 0. -/
def Obligations.AttributeBitsColourOneQuadrant : Prop :=
  ∀ (b : Nat) (s t t' : State) (attr attr' : Byte), (Instr.nametable b).wellFormed = true →
    s.params.ntAttrBase.val = 960 → s.snap.nt.read (2048 * b + 960) = some attr → attr' >>> 2 = attr >>> 2 →
    exec (.nametable b) s = .next t → exec (.nametable b) (pokeNt b 960 attr' s) = .next t' →
    t.status.fault = false → t'.status.fault = false →
    ∀ x < 256, ∀ y < 240,
      (16 ≤ x ∨ 16 ≤ y ∨ ∃ n g, NametableCell s b x y n g ∧ TilePixelIs s n (y % 8) (x % 8) 0) → ∀ k < 3,
      (t'.surface .nametable).read (3 * (y * 256 + x) + k) = (t.surface .nametable).read (3 * (y * 256 + x) + k)

/-- R157: a view command whose surface is not ready, whether it takes time or not. Nothing is read: with any other snapshot
the same happens. That the form that takes time ends in the step of the `CMD` write is log 17 (DEDUCED, unsafe). -/
def Obligations.UnreadySurfaceTakesSurfaceError : Prop :=
  ∀ (s : State) (e : Event) (w : Word) (rest : List Event) (i : Instr) (v : View), IsCmdWrite e w →
    s.inputs = e :: rest → s.status.busy = false → s.status.fault = false → decode w = .ok i → viewOf i = some v →
    s.surfOk.get v = false →
    ∃ t, step s = .next t ∧
      t.status = { busy := false, done := true, fault := false, surf := true, code := 2, op := w.extractLsb' 28 4 } ∧
      t.finfo.word = 0x00080000 ||| BitVec.ofNat 32 v.id ∧ t.latched = none ∧ KeepsOutputs s t ∧
      KeepsOutside (s.setInputs rest) t ∧ t.freeIndex = s.freeIndex ∧ ∀ n, step (s.setSnap n) = .next (t.setSnap n)

/-! ### All commands -/

/-- R54, R10, R20, R25: a command writes its own destination and the registers, whether it completes or faults. -/
def Obligations.EachOutputHasOneWriter : Prop :=
  ∀ (i : Instr) (s t : State), exec i s = .next t →
    KeepsOutside s t ∧ (∀ v, viewOf i ≠ some v → t.surface v = s.surface v) ∧
    ((∀ g p, i ≠ .resolve g p) → t.rgb = s.rgb) ∧ ((∀ n h v x0 y0, i ≠ .tile n h v x0 y0) → t.ix = s.ix)

/-- R7, for commands that complete: what is written is a function of the snapshot and the word (the parameters being
fixed), and the snapshot is not written. -/
def Obligations.CommandsAreFunctionsOfTheSnapshot : Prop :=
  ∀ (i : Instr) (s s' t t' : State), s.snap = s'.snap → s.params = s'.params →
    exec i s = .next t → exec i s' = .next t' → t.status.fault = false → t'.status.fault = false →
    (t.snap = s.snap ∧ t'.snap = s'.snap) ∧ (∀ v, viewOf i = some v → s.surfOk.get v = true → s'.surfOk.get v = true → t.surface v = t'.surface v) ∧
    (∀ g p, i = .resolve g p → t.rgb = t'.rgb) ∧
    ∀ n h v x0 y0, i = .tile n h v x0 y0 → ∀ r < 8, ∀ c < 8,
      t.ix.read (256 * (y0 + r) + (x0 + c)) = t'.ix.read (256 * (y0 + r) + (x0 + c))

/-- R173 (4), R182: an executed command has ended. -/
def Obligations.ExecutedCommandsEnd : Prop :=
  ∀ (i : Instr) (s t : State), s.status.fault = false → exec i s = .next t →
    t.status.busy = false ∧ t.status.done = true ∧ t.latched = none

/-- R172 (a): a command has no meaning only where it reads a snapshot location that nothing has written; no command
stops with a fault of the model. -/
def Obligations.CommandsStopOnlyAtUnwrittenLocations : Prop :=
  ∀ (i : Instr) (s : State), (∃ t, exec i s = .next t) ∨
    ∃ sp a, exec i s = .refused (.snapshotNotWritten sp a) ∧ Unwritten s sp a

/-- R172: with the snapshot complete every command runs, whatever its operands and the data. -/
def Obligations.CompleteSnapshotRunsEveryCommand : Prop :=
  ∀ (i : Instr) (s : State), (∀ k < 64, ∃ v, s.snap.ct.read k = some v) → (∀ a < 32, ∃ v, s.snap.pal.read a = some v) →
    (∀ a < 8192, ∃ v, s.snap.chr.read a = some v) → (∀ a < 8192, ∃ v, s.snap.nt.read a = some v) →
    (∀ a < 256, ∃ v, s.snap.oam.read a = some v) → (∃ v, s.snap.tall = some v) → (∃ v, s.snap.bgsel = some v) →
    ∃ t, exec i s = .next t

/-- R158, R172: the step after a launch is `exec` of the launched instruction in the accepted state, whatever idle, healthy
state it is launched on, and it answers a next state in which the command has ended. That a launch gives the snapshot
locations that hold no value the value 0 (`launchSnapshot`) is the model's choice (log 5). -/
def Obligations.LaunchedCommandRunsFirst : Prop :=
  ∀ (s : State) (i : Instr), i.wellFormed = true → s.status.busy = false → s.status.fault = false →
    step (s.withFetchWord 32 (encode i).toNat) = exec i { s with
      snap := launchSnapshot s.snap, finfo := { index := 0, space := 0, aux := 0 }, latched := some (encode i),
      status := { busy := true, done := false, fault := false, surf := false, code := 0, op := 0 } } ∧
    ∃ t, step (s.withFetchWord 32 (encode i).toNat) = .next t ∧ t.status.busy = false ∧ t.status.done = true ∧
      t.latched = none ∧ t.inputs = s.inputs

/-- R95 (d), R117 (f), R15: bytes that no command reads change no command's outcome: slot 0 of a palette group but
group 0, bytes 1024 to 2047 of a nametable bank (`NT_ATTR_BASE` being 960), the y and x bytes of a sprite. -/
def Obligations.DeadBytesChangeNothing : Prop :=
  ∀ (i : Instr) (s : State) (v : Byte), i.wellFormed = true →
    (∀ g, 1 ≤ g → g < 8 → exec i (pokePal (4 * g) v s) = mapNext (pokePal (4 * g) v) (exec i s)) ∧
    (∀ b o, s.params.ntAttrBase.val = 960 → b < 4 → 1024 ≤ o → o < 2048 →
      exec i (pokeNt b o v s) = mapNext (pokeNt b o v) (exec i s)) ∧
    ∀ n < 64, exec i (pokeOam (4 * n) v s) = mapNext (pokeOam (4 * n) v) (exec i s) ∧
      exec i (pokeOam (4 * n + 3) v s) = mapNext (pokeOam (4 * n + 3) v) (exec i s)

/-! ### The registers and the other agents -/

/-- R22: a write of `CMD` issues the command, a read returns 0 and has no effect. That a write through the register window is
the form that takes no time is the model's choice (log 23), and so is that both accesses have their effect for a `REG_BASE`
that is no multiple of 4 (log 28). -/
def Obligations.CmdRegisterIssuesAndReadsZero : Prop :=
  ∀ (s : State) (w : Word) (rest : List Event),
    step (s.setInputs (.hostWrite s.params.regBase 4 w :: rest)) = step (s.setInputs (.cmd w :: rest)) ∧
    step (s.setInputs (.hostRead s.params.regBase 4 :: rest)) = .next { s with inputs := rest, readData := 0 }

/-- R23 and R26: how the fields lie in the two words; a write of `STATUS` is ignored. That the write is ignored for a `REG_BASE`
that is no multiple of 4 is the model's choice (log 28). -/
def Obligations.StatusAndFinfoWords : Prop :=
  (∀ st : Status, st.word.getLsbD 0 = st.busy ∧ st.word.getLsbD 1 = st.done ∧ st.word.getLsbD 2 = st.fault ∧
    st.word.getLsbD 3 = st.surf ∧ st.word.extractLsb' 4 4 = st.code ∧ st.word.extractLsb' 8 4 = st.op ∧
    st.word.extractLsb' 12 20 = 0#20) ∧
  (∀ f : FInfo, f.word.extractLsb' 0 16 = f.index ∧ f.word.extractLsb' 16 4 = f.space ∧
    f.word.extractLsb' 20 8 = f.aux ∧ f.word.extractLsb' 28 4 = 0#4) ∧
  ∀ (s : State) (w : Word) (rest : List Event),
    step (s.setInputs (.hostWrite (s.params.regBase + 4) 4 w :: rest)) = .next (s.setInputs rest)

/-- R27: what the host reads at the four offsets while no command is in flight, and that nothing else changes (R47).
That the four reads return this for a `REG_BASE` that is no multiple of 4 is the model's choice (log 28). -/
def Obligations.HostReadsTheRegisters : Prop :=
  ∀ (s : State) (rest : List Event) (off : Nat) (v : Word), s.status.busy = false →
    (off, v) ∈ [(0, 0#32), (4, s.status.word), (8, s.rgb), (12, s.finfo.word)] →
    step (s.setInputs (.hostRead (s.params.regBase + off) 4 :: rest)) = .next { s with inputs := rest, readData := v }

/-- R46: a narrower or misaligned register access is refused. That the alignment is measured from the base of the window,
whatever `REG_BASE`, is the model's choice (log 28); for an offset past the window the refusal is log 14 (DEDUCED). -/
def Obligations.OtherRegisterAccessesAreRefused : Prop :=
  ∀ (s : State) (rest : List Event) (off bytes : Nat) (v : Word), bytes ≠ 4 ∨ off % 4 ≠ 0 →
    step (s.setInputs (.hostRead (s.params.regBase + off) bytes :: rest)) =
      .refused (.registerAccess (s.params.regBase + off) bytes) ∧
    step (s.setInputs (.hostWrite (s.params.regBase + off) bytes v :: rest)) =
      .refused (.registerAccess (s.params.regBase + off) bytes)

/-- R34 and R51: while no command is in flight, a read of an output location returns its value, and a read of one that
holds none stops, never giving zero. That it stops with a fault is the model's choice among those U6 names (log 8). -/
def Obligations.OutputReadsReturnOnlyWrittenValues : Prop :=
  ∀ (s : State) (rest : List Event), s.status.busy = false →
    (∀ x < 256, ∀ y < 240,
      (∀ p, s.ix.read (256 * y + x) = some p →
        step (s.setInputs (.readIx x y :: rest)) = .next { s with inputs := rest, readData := p.setWidth 32 }) ∧
      (s.ix.read (256 * y + x) = none →
        step (s.setInputs (.readIx x y :: rest)) = .fault (.readOfNoValue .ix (256 * y + x)))) ∧
    ∀ v, ∀ a < v.bytes,
      (∀ b, (s.surface v).read a = some b →
        step (s.setInputs (.readSurface v a :: rest)) = .next { s with inputs := rest, readData := b.setWidth 32 }) ∧
      ((s.surface v).read a = none →
        step (s.setInputs (.readSurface v a :: rest)) = .fault (.readOfNoValue .surface a))

/-- R40, R180: a Provider write while no command is in flight is read back at its location; every other location of its
space, every other snapshot space and everything outside the snapshot are unchanged. -/
def Obligations.ProviderWritesOneLocation : Prop :=
  ∀ (s : State) (rest : List Event) (v : Byte), s.status.busy = false →
    (∀ k < 64, ∀ e : Word, ∃ m, Replaces s.snap.ct m k e ∧
      step (s.setInputs (.provideCt k e :: rest)) = .next { s with inputs := rest, snap := { s.snap with ct := m } }) ∧
    (∀ a < 32, ∃ m, Replaces s.snap.pal m a v ∧
      step (s.setInputs (.providePal a v :: rest)) = .next { s with inputs := rest, snap := { s.snap with pal := m } }) ∧
    (∀ a < 8192, ∃ m, Replaces s.snap.chr m a v ∧
      step (s.setInputs (.provideChr a v :: rest)) = .next { s with inputs := rest, snap := { s.snap with chr := m } }) ∧
    (∀ b < 4, ∀ o < 2048, ∃ m, Replaces s.snap.nt m (2048 * b + o) v ∧
      step (s.setInputs (.provideNt b o v :: rest)) = .next { s with inputs := rest, snap := { s.snap with nt := m } }) ∧
    (∀ a < 256, ∃ m, Replaces s.snap.oam m a v ∧
      step (s.setInputs (.provideOam a v :: rest)) = .next { s with inputs := rest, snap := { s.snap with oam := m } }) ∧
    (∀ b, step (s.setInputs (.provideTall b :: rest)) =
      .next { s with inputs := rest, snap := { s.snap with tall := some b } }) ∧
    ∀ b, step (s.setInputs (.provideBgsel b :: rest)) =
      .next { s with inputs := rest, snap := { s.snap with bgsel := some b } }

/-- R180: no move of the Provider or of the Sink, and no read, changes an output or a register of the block. -/
def Obligations.OtherAgentsLeaveTheBlockAlone : Prop :=
  ∀ (s t : State) (e : Event) (rest : List Event), s.inputs = e :: rest →
    (∀ w, ¬IsCmdWrite e w) → e ≠ .finish → e ≠ .rst → (∀ addr n w, e ≠ .hostWrite addr n w) → step s = .next t →
    KeepsOutputs s t ∧ t.status = s.status ∧ t.finfo = s.finfo ∧ t.latched = s.latched ∧ t.params = s.params

/-- R176: the Provider has no move while a command is in flight. That the model refuses it is U4's preferred choice
(log 13). -/
def Obligations.SnapshotHoldsWhileBusy : Prop :=
  ∀ (s t : State), s.status.busy = true → step s = .next t → t.snap = s.snap

/-! ### Invariants -/

/-- Formalises R153: no step records the code of `Invariant`. -/
def Obligations.InvariantCodeIsNeverRecorded : Prop :=
  ∀ s t : State, step s = .next t → s.status.code ≠ 3#4 → t.status.code ≠ 3#4

/-- The state after reset meets the invariant. -/
def Obligations.ResetMeetsTheInvariant : Prop := State.reset.Inv

/-- Every step keeps the invariant: canonical memories inside their spaces, `BUSY` exactly while a command word is
latched, the relations of R23 and R158 between the flags and the report, `RGB[31:24] = 0`. -/
def Obligations.EveryStepKeepsTheInvariant : Prop :=
  ∀ s t : State, s.Inv → step s = .next t → t.Inv

/-! ### Readiness, reads in flight, dead bits -/

/-- R24, R180: the Sink drives one readiness input, at any time; the other four and everything else are unchanged. -/
def Obligations.SinkDrivesOneReadinessInput : Prop :=
  ∀ (s : State) (rest : List Event) (v : View) (ok : Bool), ∃ o : SurfOk,
    step (s.setInputs (.driveSurfOk v ok :: rest)) = .next { s with inputs := rest, surfOk := o } ∧ o.get v = ok ∧
    ∀ u, u ≠ v → o.get u = s.surfOk.get u

/-- R180 ("any register at any time") with R22, R23, R25, R26: what the host reads while a command is in flight. That `RGB`
reads as a free value (some colour, bits 31:24 being 0) and `FINFO` as its stored value is the model's reading (log 11);
that the four reads return this for a `REG_BASE` that is no multiple of 4 is the model's choice (log 28). -/
def Obligations.RegistersCanBeReadInFlight : Prop :=
  ∀ (s : State) (rest : List Event), s.status.busy = true →
    step (s.setInputs (.hostRead s.params.regBase 4 :: rest)) = .next { s with inputs := rest, readData := 0 } ∧
    step (s.setInputs (.hostRead (s.params.regBase + 4) 4 :: rest)) =
      .next { s with inputs := rest, readData := s.status.word } ∧
    (∃ c : Rgb, step (s.setInputs (.hostRead (s.params.regBase + 8) 4 :: rest)) =
      .next { s with inputs := rest, readData := c.setWidth 32, freeIndex := s.freeIndex + 1 }) ∧
    step (s.setInputs (.hostRead (s.params.regBase + 12) 4 :: rest)) =
      .next { s with inputs := rest, readData := s.finfo.word }

/-- R51, R175: a read of `IX` or of a surface while a command is in flight is no move of the host or the Sink. That the model
refuses it is the model's choice among those of U7 (log 12). -/
def Obligations.OutputReadsInFlightAreRefused : Prop :=
  ∀ (s : State) (rest : List Event), s.status.busy = true →
    (∀ x y, step (s.setInputs (.readIx x y :: rest)) = .refused .outputReadWhileBusy) ∧
    ∀ v a, step (s.setInputs (.readSurface v a :: rest)) = .refused .outputReadWhileBusy

/-- R11, R122, R112 (U13): bits that no command reads change no command's outcome: bits 31:24 of an entry of `CT`, bits 5:2
of a sprite's attribute byte, bits 7:4 of the attribute bytes 56 to 63 of a nametable bank (`NT_ATTR_BASE` being 960). -/
def Obligations.DeadBitsChangeNothing : Prop :=
  ∀ (i : Instr) (s : State),
    (∀ (k : Nat) (e e' : Word), s.snap.ct.read k = some e → e'.extractLsb' 0 24 = e.extractLsb' 0 24 →
      exec i (pokeCt k e' s) = mapNext (pokeCt k e') (exec i s)) ∧
    (∀ (n : Nat) (a a' : Byte), s.snap.oam.read (4 * n + 2) = some a → a' &&& 0xC3 = a &&& 0xC3 →
      exec i (pokeOam (4 * n + 2) a' s) = mapNext (pokeOam (4 * n + 2) a') (exec i s)) ∧
    ∀ (b j : Nat) (a a' : Byte), s.params.ntAttrBase.val = 960 → b < 4 → j < 8 →
      s.snap.nt.read (2048 * b + (1016 + j)) = some a → a' &&& 0x0F = a &&& 0x0F →
      exec i (pokeNt b (1016 + j) a' s) = mapNext (pokeNt b (1016 + j) a') (exec i s)
end

