-- ==== Sys2Proof/Laws/Decode.lean ====
section
/-!
SUPPORT. The fields of a word and of an encoded instruction, as arithmetic.
-/

namespace Sys2Proof

theorem field_eq (w : Word) (lo n : Nat) : field w lo n = w.toNat / 2 ^ lo % 2 ^ n := by
  simp [field, BitVec.extractLsb'_toNat, Nat.shiftRight_eq_div_pow]

theorem field_lt (w : Word) (lo n : Nat) : field w lo n < 2 ^ n := by
  rw [field_eq]; exact Nat.mod_lt _ (Nat.two_pow_pos n)

theorem opField_toNat (w : Word) : (opField w).toNat = w.toNat / 2 ^ 28 := by
  have := w.isLt
  simp [opField, BitVec.extractLsb'_toNat, Nat.shiftRight_eq_div_pow]
  omega

theorem opField_eq_iff (w : Word) (op : Nibble) : opField w = op ↔ w.toNat / 2 ^ 28 = op.toNat := by
  rw [← opField_toNat]; exact ⟨congrArg _, BitVec.eq_of_toNat_eq⟩

/-- The operands of a well-formed instruction fit below the opcode. -/
theorem operandBits_lt {i : Instr} (h : i.wellFormed = true) : i.operandBits < 2 ^ 28 := by
  cases i with
  | tile t fh fv x0 y0 =>
    simp only [Instr.wellFormed, Bool.and_eq_true, decide_eq_true_eq] at h
    have := fh.toNat_lt; have := fv.toNat_lt
    simp only [Instr.operandBits]; omega
  | resolve g p =>
    simp only [Instr.wellFormed, Bool.and_eq_true, decide_eq_true_eq] at h
    simp only [Instr.operandBits]; omega
  | pattern sel => simp only [Instr.wellFormed, decide_eq_true_eq] at h; simp only [Instr.operandBits]; omega
  | nametable b => simp only [Instr.wellFormed, decide_eq_true_eq] at h; simp only [Instr.operandBits]; omega
  | _ => simp [Instr.operandBits]

/-- The word of a well-formed instruction as a number (R72). -/
theorem encode_toNat {i : Instr} (h : i.wellFormed = true) :
    (encode i).toNat = i.opcode.toNat * 2 ^ 28 + i.operandBits := by
  have := operandBits_lt h
  have := i.opcode.isLt
  rw [encode, BitVec.toNat_ofNat, Nat.mod_eq_of_lt (by omega)]

theorem opField_encode {i : Instr} (h : i.wellFormed = true) : opField (encode i) = i.opcode := by
  have := operandBits_lt h
  rw [opField_eq_iff, encode_toNat h]; omega

theorem unlessReserved_eq_ok {r : Nat} {i j : Instr} : unlessReserved r i = .ok j ↔ r = 0 ∧ i = j := by
  unfold unlessReserved; split <;> simp [*]

end Sys2Proof
end

