-- ==== Sys2Proof/Laws/Memory.lean ====
section
/-!
SUPPORT. The laws of memories: a read after a write, the canonical form kept by every operation, whole memories.
-/

namespace Sys2Proof

variable {w : Nat}

namespace Memory

@[simp] theorem read_nil (a : Nat) : Memory.read ([] : Memory w) a = none := rfl

theorem read_cons (k : Nat) (v : BitVec w) (rest : Memory w) (a : Nat) :
    Memory.read ((k, v) :: rest : Memory w) a = if k = a then some v else Memory.read rest a := rfl

/-! ### Read after write -/

@[simp] theorem read_write_same (m : Memory w) (a : Nat) (v : BitVec w) : (m.write a v).read a = some v := by
  induction m with
  | nil => simp [Memory.write, Memory.read]
  | cons cell rest ih =>
    obtain ⟨k, u⟩ := cell
    simp only [Memory.write]
    split
    · simp [Memory.read]
    · split
      · simp [Memory.read]
      · rw [read_cons, if_neg (by omega)]; exact ih

theorem read_write_other (m : Memory w) {a b : Nat} (v : BitVec w) (h : b ≠ a) : (m.write a v).read b = m.read b := by
  induction m with
  | nil => simp [Memory.write, Memory.read, Ne.symm h]
  | cons cell rest ih =>
    obtain ⟨k, u⟩ := cell
    simp only [Memory.write]
    split
    · rw [read_cons, if_neg (Ne.symm h)]
    · split
      · rw [read_cons, read_cons, if_neg (Ne.symm h), if_neg (by omega)]
      · rw [read_cons, read_cons, ih]

theorem read_write (m : Memory w) (a b : Nat) (v : BitVec w) :
    (m.write a v).read b = if b = a then some v else m.read b := by
  split
  · subst b; simp
  · exact read_write_other m v ‹_›

/-! ### The canonical form -/

theorem risesAbove_of_le {m : Memory w} {a b : Nat} (h : m.risesAbove b = true) (hab : a ≤ b) :
    m.risesAbove a = true := by
  cases m with
  | nil => rfl
  | cons cell rest =>
    simp only [Memory.risesAbove, Bool.and_eq_true, decide_eq_true_eq] at h ⊢
    exact ⟨by omega, h.2⟩

theorem wf_of_risesAbove {m : Memory w} {a : Nat} (h : m.risesAbove a = true) : m.wf = true := by
  cases m with
  | nil => rfl
  | cons cell rest => simpa [Memory.wf] using (Bool.and_eq_true_iff.mp h).2

theorem risesAbove_write {m : Memory w} {a b : Nat} (v : BitVec w) (h : m.risesAbove b = true) (hb : b < a) :
    (m.write a v).risesAbove b = true := by
  induction m generalizing b with
  | nil => simp [Memory.write, Memory.risesAbove, hb]
  | cons cell rest ih =>
    obtain ⟨k, u⟩ := cell
    simp only [Memory.risesAbove, Bool.and_eq_true, decide_eq_true_eq] at h
    simp only [Memory.write]
    split
    · simp [Memory.risesAbove, h.2, *]
    · split
      · subst a; simp [Memory.risesAbove, h.1, h.2]
      · simp only [Memory.risesAbove, Bool.and_eq_true, decide_eq_true_eq]
        exact ⟨h.1, ih h.2 (by omega)⟩

theorem wf_write {m : Memory w} (a : Nat) (v : BitVec w) (h : m.wf = true) : (m.write a v).wf = true := by
  cases m with
  | nil => rfl
  | cons cell rest =>
    obtain ⟨k, u⟩ := cell
    simp only [Memory.wf] at h
    simp only [Memory.write]
    split
    · simp [Memory.wf, Memory.risesAbove, *]
    · split
      · subst a; simpa [Memory.wf] using h
      · exact risesAbove_write v h (by omega)

@[simp] theorem wf_nil : Memory.wf ([] : Memory w) = true := rfl

/-- The canonical form in words of the library: the addresses rise strictly. -/
theorem risesAbove_iff {m : Memory w} {a : Nat} :
    m.risesAbove a = true ↔ (∀ cell ∈ m, a < cell.1) ∧ m.Pairwise (fun x y => x.1 < y.1) := by
  induction m generalizing a with
  | nil => simp [Memory.risesAbove]
  | cons cell rest ih =>
    obtain ⟨k, u⟩ := cell
    simp only [Memory.risesAbove, Bool.and_eq_true, decide_eq_true_eq, ih, List.mem_cons, forall_eq_or_imp,
      List.pairwise_cons]
    constructor
    · rintro ⟨h1, h2, h3⟩; exact ⟨⟨h1, fun c hc => lt_trans h1 (h2 c hc)⟩, h2, h3⟩
    · rintro ⟨⟨h1, _⟩, h2, h3⟩; exact ⟨h1, h2, h3⟩

theorem wf_iff {m : Memory w} : m.wf = true ↔ m.Pairwise (fun x y => x.1 < y.1) := by
  cases m with
  | nil => simp
  | cons cell rest => obtain ⟨k, u⟩ := cell; simp [Memory.wf, risesAbove_iff]

/-- A memory in canonical form lists a cell exactly when its address reads as the cell's value. -/
theorem mem_iff_read {m : Memory w} (h : m.wf = true) (a : Nat) (v : BitVec w) :
    (a, v) ∈ m ↔ m.read a = some v := by
  rw [wf_iff] at h
  induction m with
  | nil => simp
  | cons cell rest ih =>
    obtain ⟨k, u⟩ := cell
    rw [List.pairwise_cons] at h
    rw [List.mem_cons, read_cons]
    split
    · subst k
      have : (a, v) ∉ rest := fun hm => Nat.lt_irrefl a (h.1 _ hm)
      simp [this, eq_comm]
    · rw [← ih h.2]; simp [Ne.symm ‹_›]

/-- Two memories in canonical form that read alike everywhere are equal: equal memories are equal data. -/
theorem eq_of_read_eq {m n : Memory w} (hm : m.wf = true) (hn : n.wf = true) (h : ∀ a, m.read a = n.read a) :
    m = n := by
  have hm' := hm; have hn' := hn
  rw [wf_iff] at hm' hn'
  have irrefl : ∀ l : Memory w, l.Pairwise (fun x y => x.1 < y.1) → l.Nodup := fun l hl =>
    List.Pairwise.imp (S := (· ≠ ·)) (fun hxy e => by subst e; exact Nat.lt_irrefl _ hxy) hl
  refine List.Perm.eq_of_pairwise (le := fun x y : Nat × BitVec w => x.1 < y.1) ?_ hm' hn' ?_
  · intro x y _ _ hxy hyx; omega
  · rw [List.perm_ext_iff_of_nodup (irrefl m hm') (irrefl n hn')]
    rintro ⟨a, v⟩
    rw [mem_iff_read hm, mem_iff_read hn, h]

/-! ### Addresses below a bound -/

@[simp] theorem below_nil (n : Nat) : Memory.below n ([] : Memory w) = true := rfl

theorem below_iff {m : Memory w} {n : Nat} : m.below n = true ↔ ∀ cell ∈ m, cell.1 < n := by
  simp [Memory.below]

theorem mem_write {m : Memory w} {a : Nat} {v : BitVec w} {cell : Nat × BitVec w} (h : cell ∈ m.write a v) :
    cell = (a, v) ∨ cell ∈ m := by
  induction m with
  | nil => simpa [Memory.write] using h
  | cons c rest ih =>
    obtain ⟨k, u⟩ := c
    simp only [Memory.write] at h
    split at h
    · simpa using h
    · split at h
      · rcases List.mem_cons.mp h with h | h
        · exact .inl h
        · exact .inr (List.mem_cons_of_mem _ h)
      · rcases List.mem_cons.mp h with h | h
        · exact .inr (h ▸ List.mem_cons_self)
        · exact (ih h).imp id (List.mem_cons_of_mem _)

theorem below_write {m : Memory w} {n a : Nat} (v : BitVec w) (h : m.below n = true) (ha : a < n) :
    (m.write a v).below n = true := by
  rw [below_iff] at h ⊢
  intro cell hc
  rcases mem_write hc with rfl | hc
  · exact ha
  · exact h cell hc

theorem read_of_below {m : Memory w} {n a : Nat} (h : m.below n = true) (ha : n ≤ a) : m.read a = none := by
  rw [below_iff] at h
  induction m with
  | nil => rfl
  | cons cell rest ih =>
    obtain ⟨k, u⟩ := cell
    have hk : k < n := h (k, u) List.mem_cons_self
    rw [read_cons, if_neg (by omega)]
    exact ih fun c hc => h c (List.mem_cons_of_mem _ hc)

/-! ### Whole memories -/

theorem read_map_of_nodup {f : Nat → BitVec w} {l : List Nat} {a : Nat} (ha : a ∈ l) :
    Memory.read (l.map fun a => (a, f a)) a = some (f a) := by
  induction l with
  | nil => simp at ha
  | cons b l ih =>
    rw [List.map_cons, read_cons]
    split
    · subst b; rfl
    · exact ih ((List.mem_cons.mp ha).resolve_left fun h => ‹¬b = a› h.symm)

theorem read_map_of_not_mem {f : Nat → BitVec w} {l : List Nat} {a : Nat} (ha : a ∉ l) :
    Memory.read (l.map fun a => (a, f a)) a = none := by
  induction l with
  | nil => rfl
  | cons b l ih =>
    rw [List.mem_cons, not_or] at ha
    rw [List.map_cons, read_cons, if_neg (Ne.symm ha.1)]
    exact ih ha.2

theorem read_tabulate (n : Nat) (f : Nat → BitVec w) (a : Nat) :
    (Memory.tabulate n f).read a = if a < n then some (f a) else none := by
  split
  · exact read_map_of_nodup (List.mem_range.mpr ‹_›)
  · exact read_map_of_not_mem (by simpa using ‹¬a < n›)

theorem wf_tabulate (n : Nat) (f : Nat → BitVec w) : (Memory.tabulate n f).wf = true := by
  rw [wf_iff, Memory.tabulate, List.pairwise_map]
  exact List.pairwise_lt_range

theorem below_tabulate (n : Nat) (f : Nat → BitVec w) : (Memory.tabulate n f).below n = true := by
  rw [below_iff]; simp [Memory.tabulate]

theorem full_tabulate (n : Nat) (f : Nat → BitVec w) : (Memory.tabulate n f).full n = true := by
  simp [Memory.full, Memory.tabulate, Function.comp_def]

/-- A listed address reads as some value. -/
theorem read_isSome_of_mem {m : Memory w} {a : Nat} (h : a ∈ m.map (·.1)) : (m.read a).isSome = true := by
  induction m with
  | nil => simp at h
  | cons cell rest ih =>
    obtain ⟨k, u⟩ := cell
    rw [read_cons]
    split
    · rfl
    · exact ih ((List.mem_cons.mp h).resolve_left fun e => ‹¬k = a› e.symm)

/-- Every address of a full memory reads as some value. -/
theorem read_of_full {m : Memory w} {n a : Nat} (h : m.full n = true) (ha : a < n) : ∃ v, m.read a = some v := by
  rw [Memory.full, beq_iff_eq] at h
  exact Option.isSome_iff_exists.mp (read_isSome_of_mem (by simpa [h] using ha))

end Memory
end Sys2Proof
end

