-- ==== Sys2Proof/Laws/State.lean ====
section
/-!
SUPPORT. One lemma per field per update of the state, so that no proof unfolds a record update.
-/

namespace Sys2Proof.Machine

@[simp] theorem State.setSnap_snap (s : State) (x : Snapshot) : (s.setSnap x).snap = x := rfl
@[simp] theorem State.setSnap_surfOk (s : State) (x : Snapshot) : (s.setSnap x).surfOk = s.surfOk := rfl
@[simp] theorem State.setSnap_params (s : State) (x : Snapshot) : (s.setSnap x).params = s.params := rfl
@[simp] theorem State.setSnap_ix (s : State) (x : Snapshot) : (s.setSnap x).ix = s.ix := rfl
@[simp] theorem State.setSnap_surfaces (s : State) (x : Snapshot) : (s.setSnap x).surfaces = s.surfaces := rfl
@[simp] theorem State.setSnap_status (s : State) (x : Snapshot) : (s.setSnap x).status = s.status := rfl
@[simp] theorem State.setSnap_rgb (s : State) (x : Snapshot) : (s.setSnap x).rgb = s.rgb := rfl
@[simp] theorem State.setSnap_finfo (s : State) (x : Snapshot) : (s.setSnap x).finfo = s.finfo := rfl
@[simp] theorem State.setSnap_latched (s : State) (x : Snapshot) : (s.setSnap x).latched = s.latched := rfl
@[simp] theorem State.setSnap_inputs (s : State) (x : Snapshot) : (s.setSnap x).inputs = s.inputs := rfl
@[simp] theorem State.setSnap_readData (s : State) (x : Snapshot) : (s.setSnap x).readData = s.readData := rfl
@[simp] theorem State.setSnap_freeIndex (s : State) (x : Snapshot) : (s.setSnap x).freeIndex = s.freeIndex := rfl

@[simp] theorem State.setSurfOk_snap (s : State) (x : SurfOk) : (s.setSurfOk x).snap = s.snap := rfl
@[simp] theorem State.setSurfOk_surfOk (s : State) (x : SurfOk) : (s.setSurfOk x).surfOk = x := rfl
@[simp] theorem State.setSurfOk_params (s : State) (x : SurfOk) : (s.setSurfOk x).params = s.params := rfl
@[simp] theorem State.setSurfOk_ix (s : State) (x : SurfOk) : (s.setSurfOk x).ix = s.ix := rfl
@[simp] theorem State.setSurfOk_surfaces (s : State) (x : SurfOk) : (s.setSurfOk x).surfaces = s.surfaces := rfl
@[simp] theorem State.setSurfOk_status (s : State) (x : SurfOk) : (s.setSurfOk x).status = s.status := rfl
@[simp] theorem State.setSurfOk_rgb (s : State) (x : SurfOk) : (s.setSurfOk x).rgb = s.rgb := rfl
@[simp] theorem State.setSurfOk_finfo (s : State) (x : SurfOk) : (s.setSurfOk x).finfo = s.finfo := rfl
@[simp] theorem State.setSurfOk_latched (s : State) (x : SurfOk) : (s.setSurfOk x).latched = s.latched := rfl
@[simp] theorem State.setSurfOk_inputs (s : State) (x : SurfOk) : (s.setSurfOk x).inputs = s.inputs := rfl
@[simp] theorem State.setSurfOk_readData (s : State) (x : SurfOk) : (s.setSurfOk x).readData = s.readData := rfl
@[simp] theorem State.setSurfOk_freeIndex (s : State) (x : SurfOk) : (s.setSurfOk x).freeIndex = s.freeIndex := rfl

@[simp] theorem State.setIx_snap (s : State) (x : Memory 2) : (s.setIx x).snap = s.snap := rfl
@[simp] theorem State.setIx_surfOk (s : State) (x : Memory 2) : (s.setIx x).surfOk = s.surfOk := rfl
@[simp] theorem State.setIx_params (s : State) (x : Memory 2) : (s.setIx x).params = s.params := rfl
@[simp] theorem State.setIx_ix (s : State) (x : Memory 2) : (s.setIx x).ix = x := rfl
@[simp] theorem State.setIx_surfaces (s : State) (x : Memory 2) : (s.setIx x).surfaces = s.surfaces := rfl
@[simp] theorem State.setIx_status (s : State) (x : Memory 2) : (s.setIx x).status = s.status := rfl
@[simp] theorem State.setIx_rgb (s : State) (x : Memory 2) : (s.setIx x).rgb = s.rgb := rfl
@[simp] theorem State.setIx_finfo (s : State) (x : Memory 2) : (s.setIx x).finfo = s.finfo := rfl
@[simp] theorem State.setIx_latched (s : State) (x : Memory 2) : (s.setIx x).latched = s.latched := rfl
@[simp] theorem State.setIx_inputs (s : State) (x : Memory 2) : (s.setIx x).inputs = s.inputs := rfl
@[simp] theorem State.setIx_readData (s : State) (x : Memory 2) : (s.setIx x).readData = s.readData := rfl
@[simp] theorem State.setIx_freeIndex (s : State) (x : Memory 2) : (s.setIx x).freeIndex = s.freeIndex := rfl

@[simp] theorem State.setSurfaces_snap (s : State) (x : Surfaces) : (s.setSurfaces x).snap = s.snap := rfl
@[simp] theorem State.setSurfaces_surfOk (s : State) (x : Surfaces) : (s.setSurfaces x).surfOk = s.surfOk := rfl
@[simp] theorem State.setSurfaces_params (s : State) (x : Surfaces) : (s.setSurfaces x).params = s.params := rfl
@[simp] theorem State.setSurfaces_ix (s : State) (x : Surfaces) : (s.setSurfaces x).ix = s.ix := rfl
@[simp] theorem State.setSurfaces_surfaces (s : State) (x : Surfaces) : (s.setSurfaces x).surfaces = x := rfl
@[simp] theorem State.setSurfaces_status (s : State) (x : Surfaces) : (s.setSurfaces x).status = s.status := rfl
@[simp] theorem State.setSurfaces_rgb (s : State) (x : Surfaces) : (s.setSurfaces x).rgb = s.rgb := rfl
@[simp] theorem State.setSurfaces_finfo (s : State) (x : Surfaces) : (s.setSurfaces x).finfo = s.finfo := rfl
@[simp] theorem State.setSurfaces_latched (s : State) (x : Surfaces) : (s.setSurfaces x).latched = s.latched := rfl
@[simp] theorem State.setSurfaces_inputs (s : State) (x : Surfaces) : (s.setSurfaces x).inputs = s.inputs := rfl
@[simp] theorem State.setSurfaces_readData (s : State) (x : Surfaces) : (s.setSurfaces x).readData = s.readData := rfl
@[simp] theorem State.setSurfaces_freeIndex (s : State) (x : Surfaces) : (s.setSurfaces x).freeIndex = s.freeIndex := rfl

@[simp] theorem State.setStatus_snap (s : State) (x : Status) : (s.setStatus x).snap = s.snap := rfl
@[simp] theorem State.setStatus_surfOk (s : State) (x : Status) : (s.setStatus x).surfOk = s.surfOk := rfl
@[simp] theorem State.setStatus_params (s : State) (x : Status) : (s.setStatus x).params = s.params := rfl
@[simp] theorem State.setStatus_ix (s : State) (x : Status) : (s.setStatus x).ix = s.ix := rfl
@[simp] theorem State.setStatus_surfaces (s : State) (x : Status) : (s.setStatus x).surfaces = s.surfaces := rfl
@[simp] theorem State.setStatus_status (s : State) (x : Status) : (s.setStatus x).status = x := rfl
@[simp] theorem State.setStatus_rgb (s : State) (x : Status) : (s.setStatus x).rgb = s.rgb := rfl
@[simp] theorem State.setStatus_finfo (s : State) (x : Status) : (s.setStatus x).finfo = s.finfo := rfl
@[simp] theorem State.setStatus_latched (s : State) (x : Status) : (s.setStatus x).latched = s.latched := rfl
@[simp] theorem State.setStatus_inputs (s : State) (x : Status) : (s.setStatus x).inputs = s.inputs := rfl
@[simp] theorem State.setStatus_readData (s : State) (x : Status) : (s.setStatus x).readData = s.readData := rfl
@[simp] theorem State.setStatus_freeIndex (s : State) (x : Status) : (s.setStatus x).freeIndex = s.freeIndex := rfl

@[simp] theorem State.setRgb_snap (s : State) (x : Word) : (s.setRgb x).snap = s.snap := rfl
@[simp] theorem State.setRgb_surfOk (s : State) (x : Word) : (s.setRgb x).surfOk = s.surfOk := rfl
@[simp] theorem State.setRgb_params (s : State) (x : Word) : (s.setRgb x).params = s.params := rfl
@[simp] theorem State.setRgb_ix (s : State) (x : Word) : (s.setRgb x).ix = s.ix := rfl
@[simp] theorem State.setRgb_surfaces (s : State) (x : Word) : (s.setRgb x).surfaces = s.surfaces := rfl
@[simp] theorem State.setRgb_status (s : State) (x : Word) : (s.setRgb x).status = s.status := rfl
@[simp] theorem State.setRgb_rgb (s : State) (x : Word) : (s.setRgb x).rgb = x := rfl
@[simp] theorem State.setRgb_finfo (s : State) (x : Word) : (s.setRgb x).finfo = s.finfo := rfl
@[simp] theorem State.setRgb_latched (s : State) (x : Word) : (s.setRgb x).latched = s.latched := rfl
@[simp] theorem State.setRgb_inputs (s : State) (x : Word) : (s.setRgb x).inputs = s.inputs := rfl
@[simp] theorem State.setRgb_readData (s : State) (x : Word) : (s.setRgb x).readData = s.readData := rfl
@[simp] theorem State.setRgb_freeIndex (s : State) (x : Word) : (s.setRgb x).freeIndex = s.freeIndex := rfl

@[simp] theorem State.setFinfo_snap (s : State) (x : FInfo) : (s.setFinfo x).snap = s.snap := rfl
@[simp] theorem State.setFinfo_surfOk (s : State) (x : FInfo) : (s.setFinfo x).surfOk = s.surfOk := rfl
@[simp] theorem State.setFinfo_params (s : State) (x : FInfo) : (s.setFinfo x).params = s.params := rfl
@[simp] theorem State.setFinfo_ix (s : State) (x : FInfo) : (s.setFinfo x).ix = s.ix := rfl
@[simp] theorem State.setFinfo_surfaces (s : State) (x : FInfo) : (s.setFinfo x).surfaces = s.surfaces := rfl
@[simp] theorem State.setFinfo_status (s : State) (x : FInfo) : (s.setFinfo x).status = s.status := rfl
@[simp] theorem State.setFinfo_rgb (s : State) (x : FInfo) : (s.setFinfo x).rgb = s.rgb := rfl
@[simp] theorem State.setFinfo_finfo (s : State) (x : FInfo) : (s.setFinfo x).finfo = x := rfl
@[simp] theorem State.setFinfo_latched (s : State) (x : FInfo) : (s.setFinfo x).latched = s.latched := rfl
@[simp] theorem State.setFinfo_inputs (s : State) (x : FInfo) : (s.setFinfo x).inputs = s.inputs := rfl
@[simp] theorem State.setFinfo_readData (s : State) (x : FInfo) : (s.setFinfo x).readData = s.readData := rfl
@[simp] theorem State.setFinfo_freeIndex (s : State) (x : FInfo) : (s.setFinfo x).freeIndex = s.freeIndex := rfl

@[simp] theorem State.setLatched_snap (s : State) (x : Option Word) : (s.setLatched x).snap = s.snap := rfl
@[simp] theorem State.setLatched_surfOk (s : State) (x : Option Word) : (s.setLatched x).surfOk = s.surfOk := rfl
@[simp] theorem State.setLatched_params (s : State) (x : Option Word) : (s.setLatched x).params = s.params := rfl
@[simp] theorem State.setLatched_ix (s : State) (x : Option Word) : (s.setLatched x).ix = s.ix := rfl
@[simp] theorem State.setLatched_surfaces (s : State) (x : Option Word) : (s.setLatched x).surfaces = s.surfaces := rfl
@[simp] theorem State.setLatched_status (s : State) (x : Option Word) : (s.setLatched x).status = s.status := rfl
@[simp] theorem State.setLatched_rgb (s : State) (x : Option Word) : (s.setLatched x).rgb = s.rgb := rfl
@[simp] theorem State.setLatched_finfo (s : State) (x : Option Word) : (s.setLatched x).finfo = s.finfo := rfl
@[simp] theorem State.setLatched_latched (s : State) (x : Option Word) : (s.setLatched x).latched = x := rfl
@[simp] theorem State.setLatched_inputs (s : State) (x : Option Word) : (s.setLatched x).inputs = s.inputs := rfl
@[simp] theorem State.setLatched_readData (s : State) (x : Option Word) : (s.setLatched x).readData = s.readData := rfl
@[simp] theorem State.setLatched_freeIndex (s : State) (x : Option Word) : (s.setLatched x).freeIndex = s.freeIndex := rfl

@[simp] theorem State.setInputs_snap (s : State) (x : List Event) : (s.setInputs x).snap = s.snap := rfl
@[simp] theorem State.setInputs_surfOk (s : State) (x : List Event) : (s.setInputs x).surfOk = s.surfOk := rfl
@[simp] theorem State.setInputs_params (s : State) (x : List Event) : (s.setInputs x).params = s.params := rfl
@[simp] theorem State.setInputs_ix (s : State) (x : List Event) : (s.setInputs x).ix = s.ix := rfl
@[simp] theorem State.setInputs_surfaces (s : State) (x : List Event) : (s.setInputs x).surfaces = s.surfaces := rfl
@[simp] theorem State.setInputs_status (s : State) (x : List Event) : (s.setInputs x).status = s.status := rfl
@[simp] theorem State.setInputs_rgb (s : State) (x : List Event) : (s.setInputs x).rgb = s.rgb := rfl
@[simp] theorem State.setInputs_finfo (s : State) (x : List Event) : (s.setInputs x).finfo = s.finfo := rfl
@[simp] theorem State.setInputs_latched (s : State) (x : List Event) : (s.setInputs x).latched = s.latched := rfl
@[simp] theorem State.setInputs_inputs (s : State) (x : List Event) : (s.setInputs x).inputs = x := rfl
@[simp] theorem State.setInputs_readData (s : State) (x : List Event) : (s.setInputs x).readData = s.readData := rfl
@[simp] theorem State.setInputs_freeIndex (s : State) (x : List Event) : (s.setInputs x).freeIndex = s.freeIndex := rfl

@[simp] theorem State.setReadData_snap (s : State) (x : Word) : (s.setReadData x).snap = s.snap := rfl
@[simp] theorem State.setReadData_surfOk (s : State) (x : Word) : (s.setReadData x).surfOk = s.surfOk := rfl
@[simp] theorem State.setReadData_params (s : State) (x : Word) : (s.setReadData x).params = s.params := rfl
@[simp] theorem State.setReadData_ix (s : State) (x : Word) : (s.setReadData x).ix = s.ix := rfl
@[simp] theorem State.setReadData_surfaces (s : State) (x : Word) : (s.setReadData x).surfaces = s.surfaces := rfl
@[simp] theorem State.setReadData_status (s : State) (x : Word) : (s.setReadData x).status = s.status := rfl
@[simp] theorem State.setReadData_rgb (s : State) (x : Word) : (s.setReadData x).rgb = s.rgb := rfl
@[simp] theorem State.setReadData_finfo (s : State) (x : Word) : (s.setReadData x).finfo = s.finfo := rfl
@[simp] theorem State.setReadData_latched (s : State) (x : Word) : (s.setReadData x).latched = s.latched := rfl
@[simp] theorem State.setReadData_inputs (s : State) (x : Word) : (s.setReadData x).inputs = s.inputs := rfl
@[simp] theorem State.setReadData_readData (s : State) (x : Word) : (s.setReadData x).readData = x := rfl
@[simp] theorem State.setReadData_freeIndex (s : State) (x : Word) : (s.setReadData x).freeIndex = s.freeIndex := rfl

@[simp] theorem State.setFreeIndex_snap (s : State) (x : Nat) : (s.setFreeIndex x).snap = s.snap := rfl
@[simp] theorem State.setFreeIndex_surfOk (s : State) (x : Nat) : (s.setFreeIndex x).surfOk = s.surfOk := rfl
@[simp] theorem State.setFreeIndex_params (s : State) (x : Nat) : (s.setFreeIndex x).params = s.params := rfl
@[simp] theorem State.setFreeIndex_ix (s : State) (x : Nat) : (s.setFreeIndex x).ix = s.ix := rfl
@[simp] theorem State.setFreeIndex_surfaces (s : State) (x : Nat) : (s.setFreeIndex x).surfaces = s.surfaces := rfl
@[simp] theorem State.setFreeIndex_status (s : State) (x : Nat) : (s.setFreeIndex x).status = s.status := rfl
@[simp] theorem State.setFreeIndex_rgb (s : State) (x : Nat) : (s.setFreeIndex x).rgb = s.rgb := rfl
@[simp] theorem State.setFreeIndex_finfo (s : State) (x : Nat) : (s.setFreeIndex x).finfo = s.finfo := rfl
@[simp] theorem State.setFreeIndex_latched (s : State) (x : Nat) : (s.setFreeIndex x).latched = s.latched := rfl
@[simp] theorem State.setFreeIndex_inputs (s : State) (x : Nat) : (s.setFreeIndex x).inputs = s.inputs := rfl
@[simp] theorem State.setFreeIndex_readData (s : State) (x : Nat) : (s.setFreeIndex x).readData = s.readData := rfl
@[simp] theorem State.setFreeIndex_freeIndex (s : State) (x : Nat) : (s.setFreeIndex x).freeIndex = x := rfl

/-! ### The surfaces by view -/

@[simp] theorem Surfaces.get_set_same (f : Surfaces) (v : View) (m : Memory 8) : (f.set v m).get v = m := by
  cases v <;> rfl

theorem Surfaces.get_set_other (f : Surfaces) {u v : View} (m : Memory 8) (h : u ≠ v) :
    (f.set v m).get u = f.get u := by
  cases u <;> cases v <;> first | rfl | exact absurd rfl h

theorem Surfaces.get_set (f : Surfaces) (u v : View) (m : Memory 8) :
    (f.set v m).get u = if u = v then m else f.get u := by
  split
  · subst u; simp
  · exact Surfaces.get_set_other f m ‹_›

@[simp] theorem Surfaces.empty_get (v : View) : Surfaces.empty.get v = [] := by cases v <;> rfl

/-- Surfaces that agree by view are equal. -/
theorem Surfaces.ext_get {f g : Surfaces} (h : ∀ v, f.get v = g.get v) : f = g := by
  have h1 := h .pattern; have h2 := h .nametable; have h3 := h .oam; have h4 := h .colors; have h5 := h .palette
  cases f; cases g; simp_all [Surfaces.get]

@[simp] theorem SurfOk.get_set_same (o : SurfOk) (v : View) (b : Bool) : (o.set v b).get v = b := by cases v <;> rfl

theorem SurfOk.get_set_other (o : SurfOk) {u v : View} (b : Bool) (h : u ≠ v) : (o.set v b).get u = o.get u := by
  cases u <;> cases v <;> first | rfl | exact absurd rfl h

@[simp] theorem State.setSurface_surface (s : State) (v : View) (m : Memory 8) : (s.setSurface v m).surface v = m := by
  simp [State.setSurface, State.surface]

theorem State.setSurface_surface_other (s : State) {u v : View} (m : Memory 8) (h : u ≠ v) :
    (s.setSurface v m).surface u = s.surface u := by
  simp [State.setSurface, State.surface, Surfaces.get_set_other _ _ h]

@[simp] theorem State.setSurface_snap (s : State) (v : View) (m : Memory 8) : (s.setSurface v m).snap = s.snap := rfl
@[simp] theorem State.setSurface_surfOk (s : State) (v : View) (m : Memory 8) : (s.setSurface v m).surfOk = s.surfOk := rfl
@[simp] theorem State.setSurface_params (s : State) (v : View) (m : Memory 8) : (s.setSurface v m).params = s.params := rfl
@[simp] theorem State.setSurface_ix (s : State) (v : View) (m : Memory 8) : (s.setSurface v m).ix = s.ix := rfl
@[simp] theorem State.setSurface_status (s : State) (v : View) (m : Memory 8) : (s.setSurface v m).status = s.status := rfl
@[simp] theorem State.setSurface_rgb (s : State) (v : View) (m : Memory 8) : (s.setSurface v m).rgb = s.rgb := rfl
@[simp] theorem State.setSurface_finfo (s : State) (v : View) (m : Memory 8) : (s.setSurface v m).finfo = s.finfo := rfl
@[simp] theorem State.setSurface_latched (s : State) (v : View) (m : Memory 8) : (s.setSurface v m).latched = s.latched := rfl
@[simp] theorem State.setSurface_inputs (s : State) (v : View) (m : Memory 8) : (s.setSurface v m).inputs = s.inputs := rfl
@[simp] theorem State.setSurface_readData (s : State) (v : View) (m : Memory 8) : (s.setSurface v m).readData = s.readData := rfl
@[simp] theorem State.setSurface_freeIndex (s : State) (v : View) (m : Memory 8) : (s.setSurface v m).freeIndex = s.freeIndex := rfl

@[simp] theorem State.setSnap_surface (s : State) (x : Snapshot) (v : View) : (s.setSnap x).surface v = s.surface v := rfl
@[simp] theorem State.setSurfOk_surface (s : State) (x : SurfOk) (v : View) : (s.setSurfOk x).surface v = s.surface v := rfl
@[simp] theorem State.setIx_surface (s : State) (x : Memory 2) (v : View) : (s.setIx x).surface v = s.surface v := rfl
@[simp] theorem State.setStatus_surface (s : State) (x : Status) (v : View) : (s.setStatus x).surface v = s.surface v := rfl
@[simp] theorem State.setRgb_surface (s : State) (x : Word) (v : View) : (s.setRgb x).surface v = s.surface v := rfl
@[simp] theorem State.setFinfo_surface (s : State) (x : FInfo) (v : View) : (s.setFinfo x).surface v = s.surface v := rfl
@[simp] theorem State.setLatched_surface (s : State) (x : Option Word) (v : View) : (s.setLatched x).surface v = s.surface v := rfl
@[simp] theorem State.setInputs_surface (s : State) (x : List Event) (v : View) : (s.setInputs x).surface v = s.surface v := rfl
@[simp] theorem State.setReadData_surface (s : State) (x : Word) (v : View) : (s.setReadData x).surface v = s.surface v := rfl
@[simp] theorem State.setFreeIndex_surface (s : State) (x : Nat) (v : View) : (s.setFreeIndex x).surface v = s.surface v := rfl

@[simp] theorem State.drawFree_freeIndex (s : State) : s.drawFree.freeIndex = s.freeIndex + 1 := rfl
@[simp] theorem State.drawFree_snap (s : State) : s.drawFree.snap = s.snap := rfl
@[simp] theorem State.drawFree_surfOk (s : State) : s.drawFree.surfOk = s.surfOk := rfl
@[simp] theorem State.drawFree_params (s : State) : s.drawFree.params = s.params := rfl
@[simp] theorem State.drawFree_ix (s : State) : s.drawFree.ix = s.ix := rfl
@[simp] theorem State.drawFree_surfaces (s : State) : s.drawFree.surfaces = s.surfaces := rfl
@[simp] theorem State.drawFree_status (s : State) : s.drawFree.status = s.status := rfl
@[simp] theorem State.drawFree_rgb (s : State) : s.drawFree.rgb = s.rgb := rfl
@[simp] theorem State.drawFree_finfo (s : State) : s.drawFree.finfo = s.finfo := rfl
@[simp] theorem State.drawFree_latched (s : State) : s.drawFree.latched = s.latched := rfl
@[simp] theorem State.drawFree_inputs (s : State) : s.drawFree.inputs = s.inputs := rfl
@[simp] theorem State.drawFree_readData (s : State) : s.drawFree.readData = s.readData := rfl
@[simp] theorem State.drawFree_surface (s : State) (v : View) : s.drawFree.surface v = s.surface v := rfl

/-! ### The flags -/

@[simp] theorem Status.cleared_busy (st : Status) : (st.cleared).busy = st.busy := rfl
@[simp] theorem Status.cleared_done (st : Status) : (st.cleared).done = false := rfl
@[simp] theorem Status.cleared_fault (st : Status) : (st.cleared).fault = st.fault := rfl
@[simp] theorem Status.cleared_surf (st : Status) : (st.cleared).surf = false := rfl
@[simp] theorem Status.cleared_code (st : Status) : (st.cleared).code = 0 := rfl
@[simp] theorem Status.cleared_op (st : Status) : (st.cleared).op = 0 := rfl
@[simp] theorem Status.started_busy (st : Status) : (st.started).busy = true := rfl
@[simp] theorem Status.started_done (st : Status) : (st.started).done = st.done := rfl
@[simp] theorem Status.started_fault (st : Status) : (st.started).fault = st.fault := rfl
@[simp] theorem Status.started_surf (st : Status) : (st.started).surf = st.surf := rfl
@[simp] theorem Status.started_code (st : Status) : (st.started).code = st.code := rfl
@[simp] theorem Status.started_op (st : Status) : (st.started).op = st.op := rfl
@[simp] theorem Status.completed_busy (st : Status) : (st.completed).busy = false := rfl
@[simp] theorem Status.completed_done (st : Status) : (st.completed).done = true := rfl
@[simp] theorem Status.completed_fault (st : Status) : (st.completed).fault = st.fault := rfl
@[simp] theorem Status.completed_surf (st : Status) : (st.completed).surf = st.surf := rfl
@[simp] theorem Status.completed_code (st : Status) : (st.completed).code = st.code := rfl
@[simp] theorem Status.completed_op (st : Status) : (st.completed).op = st.op := rfl
@[simp] theorem Status.faulted_busy (st : Status) (code op : Nibble) : (st.faulted code op).busy = false := rfl
@[simp] theorem Status.faulted_done (st : Status) (code op : Nibble) : (st.faulted code op).done = true := rfl
@[simp] theorem Status.faulted_fault (st : Status) (code op : Nibble) : (st.faulted code op).fault = true := rfl
@[simp] theorem Status.faulted_surf (st : Status) (code op : Nibble) : (st.faulted code op).surf = false := rfl
@[simp] theorem Status.faulted_code (st : Status) (code op : Nibble) : (st.faulted code op).code = code := rfl
@[simp] theorem Status.faulted_op (st : Status) (code op : Nibble) : (st.faulted code op).op = op := rfl
@[simp] theorem Status.surfaceErred_busy (st : Status) (op : Nibble) : (st.surfaceErred op).busy = false := rfl
@[simp] theorem Status.surfaceErred_done (st : Status) (op : Nibble) : (st.surfaceErred op).done = true := rfl
@[simp] theorem Status.surfaceErred_fault (st : Status) (op : Nibble) : (st.surfaceErred op).fault = st.fault := rfl
@[simp] theorem Status.surfaceErred_surf (st : Status) (op : Nibble) : (st.surfaceErred op).surf = true := rfl
@[simp] theorem Status.surfaceErred_code (st : Status) (op : Nibble) : (st.surfaceErred op).code = surfaceErrorCode := rfl
@[simp] theorem Status.surfaceErred_op (st : Status) (op : Nibble) : (st.surfaceErred op).op = op := rfl

end Sys2Proof.Machine
end

