-- ==== Sys2Proof/Laws/Ops.lean ====
section
/-!
SUPPORT. What each shared operation of Machine/Ops.lean can do, said once.
-/

namespace Sys2Proof.Machine

/-! ### Evaluations that can end early -/

@[simp] theorem stopOf_ok {α : Type} (a : α) : stopOf (.ok a) = none := rfl
@[simp] theorem stopOf_error {α : Type} (e : Stop) : stopOf (.error e : Except Stop α) = some e := rfl
@[simp] theorem pixelValue_ok {w : Nat} (v : BitVec w) : pixelValue (.ok v) = v := rfl

theorem stopOf_eq_none {α : Type} {x : Except Stop α} : stopOf x = none ↔ ∃ a, x = .ok a := by
  cases x <;> simp [stopOf]

theorem stopOf_eq_some {α : Type} {x : Except Stop α} {e : Stop} : stopOf x = some e ↔ x = .error e := by
  cases x <;> simp [stopOf]

@[simp] theorem ok_bind {α β : Type} (a : α) (f : α → Except Stop β) : ((.ok a : Except Stop α) >>= f) = f a := rfl
@[simp] theorem error_bind {α β : Type} (e : Stop) (f : α → Except Stop β) :
    ((.error e : Except Stop α) >>= f) = .error e := rfl
@[simp] theorem pure_eq_ok {α : Type} (a : α) : (pure a : Except Stop α) = .ok a := rfl

theorem bind_eq_ok {α β : Type} {x : Except Stop α} {f : α → Except Stop β} {b : β} :
    (x >>= f) = .ok b ↔ ∃ a, x = .ok a ∧ f a = .ok b := by
  cases x <;> simp

theorem bind_eq_error {α β : Type} {x : Except Stop α} {f : α → Except Stop β} {e : Stop} :
    (x >>= f) = .error e ↔ x = .error e ∨ ∃ a, x = .ok a ∧ f a = .error e := by
  cases x <;> simp

/-! ### Checked reads (R49) -/

theorem checkedRead_eq_ok {w : Nat} {sp : Space} {m : Memory w} {i aux : Nat} {v : BitVec w} :
    checkedRead sp m i aux = .ok v ↔ i < sp.size ∧ m.read i = some v := by
  unfold checkedRead
  split
  · have : ¬i < sp.size := by omega
    simp [this]
  · have : i < sp.size := by omega
    cases m.read i <;> simp [this]

theorem checkedRead_eq_error {w : Nat} {sp : Space} {m : Memory w} {i aux : Nat} {e : Stop} :
    checkedRead sp m i aux = .error e ↔
      (sp.size ≤ i ∧ e = .fault (outOfRange sp i aux)) ∨ (i < sp.size ∧ m.read i = none ∧ e = .unwritten sp i) := by
  unfold checkedRead
  split
  · have : ¬i < sp.size := by omega
    simp [eq_comm, *]
  · have : i < sp.size := by omega
    cases m.read i <;> simp [eq_comm, *]

theorem checkedRead_of_lt {w : Nat} {sp : Space} {m : Memory w} {i aux : Nat} {v : BitVec w} (h : i < sp.size)
    (hv : m.read i = some v) : checkedRead sp m i aux = .ok v := checkedRead_eq_ok.mpr ⟨h, hv⟩

/-! ### How a command ends -/

/-- Fault entry changes `STATUS`, `FINFO` and the latched word only (R156), and nothing while a fault stands (R160). -/
theorem raiseFault_of_fault {op : Nibble} {f : FaultInfo} {s : State} (h : s.status.fault = true) :
    raiseFault op f s = s := by simp [raiseFault, h]

theorem raiseFault_of_healthy {op : Nibble} {f : FaultInfo} {s : State} (h : s.status.fault = false) :
    raiseFault op f s = (s.endCommand (s.status.faulted f.cause.code op)).setFinfo f.finfo := by simp [raiseFault, h]

theorem raiseFault_frame (op : Nibble) (f : FaultInfo) (s : State) :
    (raiseFault op f s).snap = s.snap ∧ (raiseFault op f s).surfOk = s.surfOk ∧
    (raiseFault op f s).params = s.params ∧ (raiseFault op f s).ix = s.ix ∧
    (raiseFault op f s).surfaces = s.surfaces ∧ (raiseFault op f s).rgb = s.rgb ∧
    (raiseFault op f s).inputs = s.inputs ∧ (raiseFault op f s).readData = s.readData ∧
    (raiseFault op f s).freeIndex = s.freeIndex := by
  unfold raiseFault
  split <;> exact ⟨rfl, rfl, rfl, rfl, rfl, rfl, rfl, rfl, rfl⟩

@[simp] theorem raiseFault_snap (op : Nibble) (f : FaultInfo) (s : State) : (raiseFault op f s).snap = s.snap :=
  (raiseFault_frame op f s).1
@[simp] theorem raiseFault_surfOk (op : Nibble) (f : FaultInfo) (s : State) : (raiseFault op f s).surfOk = s.surfOk :=
  (raiseFault_frame op f s).2.1
@[simp] theorem raiseFault_params (op : Nibble) (f : FaultInfo) (s : State) : (raiseFault op f s).params = s.params :=
  (raiseFault_frame op f s).2.2.1
@[simp] theorem raiseFault_ix (op : Nibble) (f : FaultInfo) (s : State) : (raiseFault op f s).ix = s.ix :=
  (raiseFault_frame op f s).2.2.2.1
@[simp] theorem raiseFault_surfaces (op : Nibble) (f : FaultInfo) (s : State) :
    (raiseFault op f s).surfaces = s.surfaces := (raiseFault_frame op f s).2.2.2.2.1
@[simp] theorem raiseFault_surface (op : Nibble) (f : FaultInfo) (s : State) (v : View) :
    (raiseFault op f s).surface v = s.surface v := by simp [State.surface]
@[simp] theorem raiseFault_rgb (op : Nibble) (f : FaultInfo) (s : State) : (raiseFault op f s).rgb = s.rgb :=
  (raiseFault_frame op f s).2.2.2.2.2.1
@[simp] theorem raiseFault_inputs (op : Nibble) (f : FaultInfo) (s : State) : (raiseFault op f s).inputs = s.inputs :=
  (raiseFault_frame op f s).2.2.2.2.2.2.1
@[simp] theorem raiseFault_readData (op : Nibble) (f : FaultInfo) (s : State) :
    (raiseFault op f s).readData = s.readData := (raiseFault_frame op f s).2.2.2.2.2.2.2.1
@[simp] theorem raiseFault_freeIndex (op : Nibble) (f : FaultInfo) (s : State) :
    (raiseFault op f s).freeIndex = s.freeIndex := (raiseFault_frame op f s).2.2.2.2.2.2.2.2

theorem raiseFault_status {op : Nibble} {f : FaultInfo} {s : State} (h : s.status.fault = false) :
    (raiseFault op f s).status = s.status.faulted f.cause.code op := by
  rw [raiseFault_of_healthy h]; rfl

theorem raiseFault_finfo {op : Nibble} {f : FaultInfo} {s : State} (h : s.status.fault = false) :
    (raiseFault op f s).finfo = f.finfo := by
  rw [raiseFault_of_healthy h]; rfl

theorem raiseFault_latched {op : Nibble} {f : FaultInfo} {s : State} (h : s.status.fault = false) :
    (raiseFault op f s).latched = none := by
  rw [raiseFault_of_healthy h]; rfl

/-- After fault entry a fault is on record (R156). -/
theorem raiseFault_fault (op : Nibble) (f : FaultInfo) (s : State) : (raiseFault op f s).status.fault = true := by
  cases hf : s.status.fault with
  | true => rw [raiseFault_of_fault hf, hf]
  | false => rw [raiseFault_status hf]; rfl

@[simp] theorem complete_status (s : State) : (complete s).status = s.status.completed := rfl
@[simp] theorem complete_latched (s : State) : (complete s).latched = none := rfl
@[simp] theorem complete_finfo (s : State) : (complete s).finfo = s.finfo := rfl
@[simp] theorem complete_rgb (s : State) : (complete s).rgb = s.rgb := rfl
@[simp] theorem complete_ix (s : State) : (complete s).ix = s.ix := rfl
@[simp] theorem complete_surfaces (s : State) : (complete s).surfaces = s.surfaces := rfl
@[simp] theorem complete_surface (s : State) (v : View) : (complete s).surface v = s.surface v := rfl
@[simp] theorem complete_snap (s : State) : (complete s).snap = s.snap := rfl
@[simp] theorem complete_surfOk (s : State) : (complete s).surfOk = s.surfOk := rfl
@[simp] theorem complete_params (s : State) : (complete s).params = s.params := rfl
@[simp] theorem complete_inputs (s : State) : (complete s).inputs = s.inputs := rfl
@[simp] theorem complete_readData (s : State) : (complete s).readData = s.readData := rfl
@[simp] theorem complete_freeIndex (s : State) : (complete s).freeIndex = s.freeIndex := rfl

@[simp] theorem raiseSurfaceError_status (op : Nibble) (v : View) (s : State) :
    (raiseSurfaceError op v s).status = s.status.surfaceErred op := rfl
@[simp] theorem raiseSurfaceError_finfo (op : Nibble) (v : View) (s : State) :
    (raiseSurfaceError op v s).finfo = surfaceErrorInfo v := rfl
@[simp] theorem raiseSurfaceError_latched (op : Nibble) (v : View) (s : State) :
    (raiseSurfaceError op v s).latched = none := rfl
@[simp] theorem raiseSurfaceError_rgb (op : Nibble) (v : View) (s : State) : (raiseSurfaceError op v s).rgb = s.rgb := rfl
@[simp] theorem raiseSurfaceError_ix (op : Nibble) (v : View) (s : State) : (raiseSurfaceError op v s).ix = s.ix := rfl
@[simp] theorem raiseSurfaceError_surfaces (op : Nibble) (v : View) (s : State) :
    (raiseSurfaceError op v s).surfaces = s.surfaces := rfl
@[simp] theorem raiseSurfaceError_surface (op : Nibble) (v u : View) (s : State) :
    (raiseSurfaceError op v s).surface u = s.surface u := rfl
@[simp] theorem raiseSurfaceError_snap (op : Nibble) (v : View) (s : State) :
    (raiseSurfaceError op v s).snap = s.snap := rfl
@[simp] theorem raiseSurfaceError_surfOk (op : Nibble) (v : View) (s : State) :
    (raiseSurfaceError op v s).surfOk = s.surfOk := rfl
@[simp] theorem raiseSurfaceError_params (op : Nibble) (v : View) (s : State) :
    (raiseSurfaceError op v s).params = s.params := rfl
@[simp] theorem raiseSurfaceError_inputs (op : Nibble) (v : View) (s : State) :
    (raiseSurfaceError op v s).inputs = s.inputs := rfl
@[simp] theorem raiseSurfaceError_readData (op : Nibble) (v : View) (s : State) :
    (raiseSurfaceError op v s).readData = s.readData := rfl
@[simp] theorem raiseSurfaceError_freeIndex (op : Nibble) (v : View) (s : State) :
    (raiseSurfaceError op v s).freeIndex = s.freeIndex := rfl

/-! ### Acceptance (R158 steps 3 and 5) -/

@[simp] theorem clearReport_status (s : State) : (clearReport s).status = s.status.cleared := rfl
@[simp] theorem clearReport_finfo (s : State) : (clearReport s).finfo = .zero := rfl
@[simp] theorem clearReport_latched (s : State) : (clearReport s).latched = s.latched := rfl
@[simp] theorem clearReport_rgb (s : State) : (clearReport s).rgb = s.rgb := rfl
@[simp] theorem clearReport_ix (s : State) : (clearReport s).ix = s.ix := rfl
@[simp] theorem clearReport_surfaces (s : State) : (clearReport s).surfaces = s.surfaces := rfl
@[simp] theorem clearReport_surface (s : State) (v : View) : (clearReport s).surface v = s.surface v := rfl
@[simp] theorem clearReport_snap (s : State) : (clearReport s).snap = s.snap := rfl
@[simp] theorem clearReport_surfOk (s : State) : (clearReport s).surfOk = s.surfOk := rfl
@[simp] theorem clearReport_params (s : State) : (clearReport s).params = s.params := rfl
@[simp] theorem clearReport_inputs (s : State) : (clearReport s).inputs = s.inputs := rfl
@[simp] theorem clearReport_readData (s : State) : (clearReport s).readData = s.readData := rfl
@[simp] theorem clearReport_freeIndex (s : State) : (clearReport s).freeIndex = s.freeIndex := rfl

@[simp] theorem acceptCommand_status (w : Word) (s : State) :
    (acceptCommand w s).status = s.status.cleared.started := rfl
@[simp] theorem acceptCommand_finfo (w : Word) (s : State) : (acceptCommand w s).finfo = .zero := rfl
@[simp] theorem acceptCommand_latched (w : Word) (s : State) : (acceptCommand w s).latched = some w := rfl
@[simp] theorem acceptCommand_rgb (w : Word) (s : State) : (acceptCommand w s).rgb = s.rgb := rfl
@[simp] theorem acceptCommand_ix (w : Word) (s : State) : (acceptCommand w s).ix = s.ix := rfl
@[simp] theorem acceptCommand_surfaces (w : Word) (s : State) : (acceptCommand w s).surfaces = s.surfaces := rfl
@[simp] theorem acceptCommand_surface (w : Word) (s : State) (v : View) :
    (acceptCommand w s).surface v = s.surface v := rfl
@[simp] theorem acceptCommand_snap (w : Word) (s : State) : (acceptCommand w s).snap = s.snap := rfl
@[simp] theorem acceptCommand_surfOk (w : Word) (s : State) : (acceptCommand w s).surfOk = s.surfOk := rfl
@[simp] theorem acceptCommand_params (w : Word) (s : State) : (acceptCommand w s).params = s.params := rfl
@[simp] theorem acceptCommand_inputs (w : Word) (s : State) : (acceptCommand w s).inputs = s.inputs := rfl
@[simp] theorem acceptCommand_readData (w : Word) (s : State) : (acceptCommand w s).readData = s.readData := rfl
@[simp] theorem acceptCommand_freeIndex (w : Word) (s : State) : (acceptCommand w s).freeIndex = s.freeIndex := rfl

/-! ### Raster loops -/

theorem raster_split {w h n : Nat} (hn : n < w * h) : n % w < w ∧ n / w < h := by
  have hw : 0 < w := by
    rcases Nat.eq_zero_or_pos w with rfl | hw
    · simp at hn
    · exact hw
  exact ⟨Nat.mod_lt _ hw, (Nat.div_lt_iff_lt_mul hw).mpr (by rwa [Nat.mul_comm] at hn)⟩

theorem raster_join {w h x y : Nat} (hx : x < w) (hy : y < h) :
    y * w + x < w * h ∧ (y * w + x) % w = x ∧ (y * w + x) / w = y := by
  refine ⟨?_, ?_, ?_⟩
  · calc y * w + x < y * w + w := by omega
      _ = (y + 1) * w := by ring
      _ ≤ h * w := Nat.mul_le_mul_right w hy
      _ = w * h := Nat.mul_comm h w
  · rw [Nat.mul_comm, Nat.mul_add_mod, Nat.mod_eq_of_lt hx]
  · rw [Nat.mul_comm, Nat.mul_add_div (by omega), Nat.div_eq_of_lt hx, Nat.add_zero]

/-- A loop over the pixels ends early nowhere exactly when every pixel has a value. -/
theorem firstStop_eq_none {α : Type} {w h : Nat} {pix : PixelFn α} :
    firstStop w h pix = none ↔ ∀ x < w, ∀ y < h, ∃ c, pix x y = .ok c := by
  rw [firstStop, List.findSome?_eq_none_iff]
  simp only [List.mem_range, stopOf_eq_none]
  constructor
  · intro hall x hx y hy
    obtain ⟨hn, hm, hd⟩ := raster_join hx hy
    simpa [hm, hd] using hall _ hn
  · intro hall n hn
    exact hall _ (raster_split hn).1 _ (raster_split hn).2

/-- Where a loop over the pixels ends early: at the first pixel in raster order that has no value (R159). -/
theorem firstStop_eq_some {α : Type} {w h : Nat} {pix : PixelFn α} {e : Stop} :
    firstStop w h pix = some e ↔ ∃ x < w, ∃ y < h, pix x y = .error e ∧
      ∀ x' < w, ∀ y' < h, y' * w + x' < y * w + x → ∃ c, pix x' y' = .ok c := by
  rw [firstStop, List.findSome?_eq_some_iff]
  constructor
  · rintro ⟨l₁, n, l₂, heq, hstop, hbefore⟩
    have hlen : l₁.length = n := by
      have h1 : (List.range (w * h))[l₁.length]? = some n := by rw [heq]; simp
      have h2 := List.getElem?_eq_some_iff.mp h1
      obtain ⟨hlt, hget⟩ := h2
      simpa using hget
    have hn : n < w * h := by
      have := List.mem_range.mp (heq ▸ List.mem_append_right l₁ List.mem_cons_self : n ∈ List.range (w * h))
      exact this
    have hl₁ : l₁ = List.range n := by
      have := congrArg (List.take n) heq
      rw [List.take_range, Nat.min_eq_left (Nat.le_of_lt hn)] at this
      rw [this, ← hlen, List.take_left']
      rfl
    refine ⟨n % w, (raster_split hn).1, n / w, (raster_split hn).2, stopOf_eq_some.mp hstop, ?_⟩
    intro x' hx' y' hy' hlt
    have hnw : n / w * w + n % w = n := Nat.div_add_mod' n w
    obtain ⟨_, hm, hd⟩ := raster_join hx' hy'
    have := hbefore (y' * w + x') (by rw [hl₁, List.mem_range]; omega)
    simpa [hm, hd, stopOf_eq_none] using this
  · rintro ⟨x, hx, y, hy, hstop, hbefore⟩
    obtain ⟨hn, hm, hd⟩ := raster_join hx hy
    refine ⟨List.range (y * w + x), y * w + x, List.range' (y * w + x + 1) (w * h - (y * w + x + 1)), ?_, ?_, ?_⟩
    · rw [← List.range'_succ, List.range_eq_range', List.range_eq_range']
      rw [show w * h - (y * w + x + 1) + 1 = w * h - (y * w + x) by omega]
      have := List.range'_append_1 (s := 0) (m := y * w + x) (n := w * h - (y * w + x))
      rw [Nat.zero_add] at this
      rw [this]; congr 1; omega
    · rw [hm, hd, hstop]; rfl
    · intro n hn'
      have hlt := List.mem_range.mp hn'
      have hn'' : n < w * h := by omega
      rw [stopOf_eq_none]
      exact hbefore _ (raster_split hn'').1 _ (raster_split hn'').2 (by rwa [Nat.div_add_mod' n w])

/-- A loop over pixels depends on the pixels it visits only. -/
theorem firstStop_congr {α : Type} {w h : Nat} {pix pix' : PixelFn α} (hp : ∀ x < w, ∀ y < h, pix' x y = pix x y) :
    firstStop w h pix' = firstStop w h pix := by
  have key : ∀ l : List Nat, (∀ n ∈ l, n < w * h) →
      (l.findSome? fun n => stopOf (pix' (n % w) (n / w))) = l.findSome? fun n => stopOf (pix (n % w) (n / w)) := by
    intro l hl
    induction l with
    | nil => rfl
    | cons n l ih =>
      have hn := raster_split (hl n List.mem_cons_self)
      rw [List.findSome?_cons, List.findSome?_cons, hp _ hn.1 _ hn.2, ih fun k hk => hl k (List.mem_cons_of_mem _ hk)]
  exact key _ fun n hn => List.mem_range.mp hn

/-! ### Whole surfaces -/

/-- A surface in address order: byte `a` is byte `a % 3` of pixel `a / 3` (R44). -/
theorem frameOf_eq_tabulate (w h : Nat) (pix : PixelFn Rgb) :
    frameOf w h pix = .tabulate (3 * (w * h)) fun a =>
      pixelByte (pixelValue (pix (a / 3 % w) (a / 3 / w))) (a % 3) := by
  unfold frameOf
  generalize w * h = n
  induction n with
  | zero => rfl
  | succ n ih =>
    have h0 : 3 * n / 3 = n ∧ 3 * n % 3 = 0 := by omega
    have h1 : (3 * n + 1) / 3 = n ∧ (3 * n + 1) % 3 = 1 := by omega
    have h2 : (3 * n + 2) / 3 = n ∧ (3 * n + 2) % 3 = 2 := by omega
    rw [List.range_succ, List.flatMap_append, ih, Memory.tabulate, Memory.tabulate,
      show 3 * (n + 1) = 3 * n + 1 + 1 + 1 by ring, List.range_succ, List.range_succ, List.range_succ]
    simp [putPixel, pixelBase, Nat.div_add_mod', List.range_succ, h0, h1, h2]

theorem wf_frameOf (w h : Nat) (pix : PixelFn Rgb) : (frameOf w h pix).wf = true := by
  rw [frameOf_eq_tabulate]; exact Memory.wf_tabulate _ _

theorem below_frameOf (w h : Nat) (pix : PixelFn Rgb) : (frameOf w h pix).below (3 * (w * h)) = true := by
  rw [frameOf_eq_tabulate]; exact Memory.below_tabulate _ _

/-- What a written surface holds at byte `k` of pixel `(x, y)` (R44, R55). -/
theorem read_frameOf {w h x y k : Nat} (pix : PixelFn Rgb) (hx : x < w) (hy : y < h) (hk : k < 3) :
    (frameOf w h pix).read (pixelBase w x y + k) = some (pixelByte (pixelValue (pix x y)) k) := by
  obtain ⟨hn, hm, hd⟩ := raster_join hx hy
  rw [frameOf_eq_tabulate, Memory.read_tabulate, pixelBase]
  have h3 : (3 * (y * w + x) + k) / 3 = y * w + x ∧ (3 * (y * w + x) + k) % 3 = k := by omega
  rw [if_pos (by omega), h3.1, h3.2, hm, hd]

/-- A whole surface depends on the pixels it shows only. -/
theorem frameOf_congr {w h : Nat} {pix pix' : PixelFn Rgb} (hp : ∀ x < w, ∀ y < h, pix' x y = pix x y) :
    frameOf w h pix' = frameOf w h pix := by
  have key : ∀ l : List Nat, (∀ n ∈ l, n < w * h) →
      (l.flatMap fun n => putPixel w (n % w) (n / w) (pixelValue (pix' (n % w) (n / w)))) =
        l.flatMap fun n => putPixel w (n % w) (n / w) (pixelValue (pix (n % w) (n / w))) := by
    intro l hl
    induction l with
    | nil => rfl
    | cons n l ih =>
      have hn := raster_split (hl n List.mem_cons_self)
      rw [List.flatMap_cons, List.flatMap_cons, hp _ hn.1 _ hn.2, ih fun k hk => hl k (List.mem_cons_of_mem _ hk)]
  exact key _ fun n hn => List.mem_range.mp hn

/-! ### The square of `TILE` -/

theorem mem_tileSquare {c r : Nat} : (c, r) ∈ tileSquare ↔ c < 8 ∧ r < 8 := by
  simp only [tileSquare, List.mem_map, List.mem_range, Prod.mk.injEq]
  constructor
  · rintro ⟨n, hn, rfl, rfl⟩; omega
  · rintro ⟨hc, hr⟩; exact ⟨8 * r + c, by omega, by omega, by omega⟩

theorem writeCells_read_other {m : Memory 2} {x0 y0 a : Nat} {f : Nat → Nat → PixVal} {l : List (Nat × Nat)}
    (h : ∀ cr ∈ l, a ≠ ixKey (x0 + cr.1) (y0 + cr.2)) :
    (l.foldl (fun m cr => m.write (ixKey (x0 + cr.1) (y0 + cr.2)) (f cr.1 cr.2)) m).read a = m.read a := by
  induction l generalizing m with
  | nil => rfl
  | cons cr l ih =>
    rw [List.foldl_cons, ih fun c hc => h c (List.mem_cons_of_mem _ hc)]
    exact Memory.read_write_other _ _ (h cr List.mem_cons_self)

theorem writeCells_read {m : Memory 2} {x0 y0 : Nat} {f : Nat → Nat → PixVal} {l : List (Nat × Nat)} {c r : Nat}
    (hl : ∀ cr ∈ l, ixKey (x0 + cr.1) (y0 + cr.2) = ixKey (x0 + c) (y0 + r) → cr = (c, r)) (h : (c, r) ∈ l) :
    (l.foldl (fun m cr => m.write (ixKey (x0 + cr.1) (y0 + cr.2)) (f cr.1 cr.2)) m).read (ixKey (x0 + c) (y0 + r)) =
      some (f c r) := by
  induction l generalizing m with
  | nil => simp at h
  | cons cr l ih =>
    rw [List.foldl_cons]
    by_cases hmem : (c, r) ∈ l
    · exact ih (fun d hd => hl d (List.mem_cons_of_mem _ hd)) hmem
    · have hcr : (c, r) = cr := (List.mem_cons.mp h).resolve_right hmem
      subst hcr
      rw [writeCells_read_other]
      · simp
      · intro d hd hEq
        exact hmem (hl d (List.mem_cons_of_mem _ hd) hEq.symm ▸ hd)

/-- The cells of the square hold their values. -/
theorem read_writeSquare {m : Memory 2} {x0 y0 c r : Nat} {f : Nat → Nat → PixVal} (hc : c < 8) (hr : r < 8) : (writeSquare m x0 y0 f).read (ixKey (x0 + c) (y0 + r)) = some (f c r) := by
  refine writeCells_read ?_ (mem_tileSquare.mpr ⟨hc, hr⟩)
  rintro ⟨c', r'⟩ hmem hEq
  have := mem_tileSquare.mp hmem
  simp only [ixKey] at hEq
  rw [Prod.mk.injEq]; omega

/-- Every other cell keeps its value (R55). -/
theorem read_writeSquare_other {m : Memory 2} {x0 y0 a : Nat} {f : Nat → Nat → PixVal}
    (h : ∀ c < 8, ∀ r < 8, a ≠ ixKey (x0 + c) (y0 + r)) : (writeSquare m x0 y0 f).read a = m.read a :=
  writeCells_read_other fun cr hcr => h cr.1 (mem_tileSquare.mp hcr).1 cr.2 (mem_tileSquare.mp hcr).2

theorem writeCells_invariant {p : Memory 2 → Prop} {x0 y0 : Nat} {f : Nat → Nat → PixVal} {l : List (Nat × Nat)}
    (hstep : ∀ m, p m → ∀ cr ∈ l, p (m.write (ixKey (x0 + cr.1) (y0 + cr.2)) (f cr.1 cr.2))) {m : Memory 2} (h : p m) :
    p (l.foldl (fun m cr => m.write (ixKey (x0 + cr.1) (y0 + cr.2)) (f cr.1 cr.2)) m) := by
  induction l generalizing m with
  | nil => exact h
  | cons cr l ih =>
    rw [List.foldl_cons]
    exact ih (fun m hm d hd => hstep m hm d (List.mem_cons_of_mem _ hd)) (hstep m h cr List.mem_cons_self)

theorem wf_writeSquare {m : Memory 2} (x0 y0 : Nat) (f : Nat → Nat → PixVal) (h : m.wf = true) :
    (writeSquare m x0 y0 f).wf = true :=
  writeCells_invariant (p := fun m => m.wf = true) (fun _ hm _ _ => Memory.wf_write _ _ hm) h

theorem below_writeSquare {m : Memory 2} {x0 y0 : Nat} (f : Nat → Nat → PixVal) (hfit : tileFits x0 y0 = true)
    (h : m.below 61440 = true) : (writeSquare m x0 y0 f).below 61440 = true := by
  refine writeCells_invariant (p := fun m => m.below 61440 = true) (fun m hm cr hcr => ?_) h
  have hcr' := mem_tileSquare.mp hcr
  simp only [tileFits, Bool.and_eq_true, decide_eq_true_eq] at hfit
  exact Memory.below_write _ hm (by simp only [ixKey]; omega)

/-- The memories of the state after reset are in canonical form. -/
theorem reset_memories_wf :
    State.reset.snap.ct.wf = true ∧ State.reset.snap.pal.wf = true ∧ State.reset.snap.chr.wf = true ∧
    State.reset.snap.nt.wf = true ∧ State.reset.snap.oam.wf = true ∧ State.reset.ix.wf = true ∧
    ∀ v, (State.reset.surface v).wf = true := by
  refine ⟨rfl, rfl, rfl, rfl, rfl, rfl, fun v => ?_⟩
  cases v <;> rfl

/-! ### Unspecified destinations -/

theorem spoilSurface_surface (v : View) (s : State) :
    (spoilSurface v s).surface v = .tabulate v.bytes (Config.freeByte s.freeIndex) := by simp [spoilSurface]

theorem spoilSurface_surface_other {u v : View} (s : State) (h : u ≠ v) :
    (spoilSurface v s).surface u = s.surface u := by simp [spoilSurface, State.setSurface_surface_other _ _ h]

@[simp] theorem spoilSurface_snap (v : View) (s : State) : (spoilSurface v s).snap = s.snap := rfl
@[simp] theorem spoilSurface_surfOk (v : View) (s : State) : (spoilSurface v s).surfOk = s.surfOk := rfl
@[simp] theorem spoilSurface_params (v : View) (s : State) : (spoilSurface v s).params = s.params := rfl
@[simp] theorem spoilSurface_ix (v : View) (s : State) : (spoilSurface v s).ix = s.ix := rfl
@[simp] theorem spoilSurface_status (v : View) (s : State) : (spoilSurface v s).status = s.status := rfl
@[simp] theorem spoilSurface_rgb (v : View) (s : State) : (spoilSurface v s).rgb = s.rgb := rfl
@[simp] theorem spoilSurface_finfo (v : View) (s : State) : (spoilSurface v s).finfo = s.finfo := rfl
@[simp] theorem spoilSurface_latched (v : View) (s : State) : (spoilSurface v s).latched = s.latched := rfl
@[simp] theorem spoilSurface_inputs (v : View) (s : State) : (spoilSurface v s).inputs = s.inputs := rfl
@[simp] theorem spoilSurface_readData (v : View) (s : State) : (spoilSurface v s).readData = s.readData := rfl
@[simp] theorem spoilSurface_freeIndex (v : View) (s : State) : (spoilSurface v s).freeIndex = s.freeIndex + 1 := rfl

/-- Spoiling a destination touches `IX`, the surfaces, `RGB` and the free counter only. -/
theorem spoilDestination_frame (i : Instr) (s : State) :
    (spoilDestination i s).snap = s.snap ∧ (spoilDestination i s).surfOk = s.surfOk ∧
    (spoilDestination i s).params = s.params ∧ (spoilDestination i s).status = s.status ∧
    (spoilDestination i s).finfo = s.finfo ∧ (spoilDestination i s).latched = s.latched ∧
    (spoilDestination i s).inputs = s.inputs ∧ (spoilDestination i s).readData = s.readData := by
  cases i with
  | tile t h v x0 y0 =>
    simp only [spoilDestination, spoilTile]
    split <;> simp
  | resolve g p => simp [spoilDestination, spoilRgb]
  | _ => simp [spoilDestination]

/-- A `TILE` in flight that is cut short leaves every cell but its 64 alone (R166). -/
theorem spoilTile_ix_other {x0 y0 a : Nat} {s : State} (h : ∀ c < 8, ∀ r < 8, a ≠ ixKey (x0 + c) (y0 + r)) :
    (spoilTile x0 y0 s).ix.read a = s.ix.read a := by
  unfold spoilTile
  split
  · rw [State.drawFree_ix, State.setIx_ix, read_writeSquare_other h]
  · rfl

@[simp] theorem spoilTile_surface (x0 y0 : Nat) (s : State) (v : View) : (spoilTile x0 y0 s).surface v = s.surface v := by
  unfold spoilTile; split <;> simp

@[simp] theorem spoilTile_rgb (x0 y0 : Nat) (s : State) : (spoilTile x0 y0 s).rgb = s.rgb := by
  unfold spoilTile; split <;> simp

@[simp] theorem spoilRgb_surface (s : State) (v : View) : (spoilRgb s).surface v = s.surface v := by simp [spoilRgb]
@[simp] theorem spoilRgb_ix (s : State) : (spoilRgb s).ix = s.ix := by simp [spoilRgb]

/-! ### One view -/

@[simp] theorem ifSurfaceReady_ready {v : View} {op : Nibble} {body : State → Host.Outcome State Fault Refusal}
    {s : State} (h : s.surfOk.get v = true) : ifSurfaceReady v op body s = body s := by simp [ifSurfaceReady, h]

theorem ifSurfaceReady_not_ready {v : View} {op : Nibble} {body : State → Host.Outcome State Fault Refusal}
    {s : State} (h : s.surfOk.get v = false) :
    ifSurfaceReady v op body s = .next (raiseSurfaceError op v s) := by simp [ifSurfaceReady, h]

/-- A view command completes when every pixel has a value. -/
theorem renderView_of_pixels {v : View} {op : Nibble} {pix : PixelFn Rgb} {s : State}
    (h : ∀ x < v.width, ∀ y < v.height, ∃ c, pix x y = .ok c) :
    renderView v op pix s = .next (complete (s.setSurface v (frameOf v.width v.height pix))) := by
  have hstop := firstStop_eq_none.mpr h
  simp [renderView, launchGap, endView, hstop]

/-- A view command faults when the first pixel without a value faults. -/
theorem renderView_of_fault {v : View} {op : Nibble} {pix : PixelFn Rgb} {s : State} {f : FaultInfo}
    (h : firstStop v.width v.height pix = some (.fault f)) :
    renderView v op pix s = .next (raiseFault op f (spoilSurface v s)) := by
  simp [renderView, launchGap, endView, h, Stop.gap?, Stop.fault?]

/-- A view command that answers a next state has either written its whole surface, every pixel having a value, or taken
the first fault in raster order. The hypothesis is what Laws/Views.lean proves of every view. -/
theorem renderView_next {v : View} {op : Nibble} {pix : PixelFn Rgb} {s t : State}
    (hgap : s.snap.complete = true → (firstStop v.width v.height pix).bind Stop.gap? = none)
    (h : renderView v op pix s = .next t) :
    ((∀ x < v.width, ∀ y < v.height, ∃ c, pix x y = .ok c) ∧
        t = complete (s.setSurface v (frameOf v.width v.height pix))) ∨
      ∃ f, firstStop v.width v.height pix = some (.fault f) ∧ t = raiseFault op f (spoilSurface v s) := by
  have hgap' : launchGap v.width v.height pix s = (firstStop v.width v.height pix).bind Stop.gap? := by
    unfold launchGap
    split
    · exact (hgap ‹_›).symm
    · rfl
  rw [renderView, hgap'] at h
  cases hs : firstStop v.width v.height pix with
  | none =>
    rw [hs] at h
    simp only [Option.bind_none, Host.Outcome.next.injEq] at h
    exact .inl ⟨firstStop_eq_none.mp hs, by rw [← h, endView, hs]; rfl⟩
  | some e =>
    rw [hs] at h
    cases e with
    | unwritten sp a => simp [Stop.gap?] at h
    | fault f =>
      simp only [Option.bind_some, Stop.gap?, Host.Outcome.next.injEq] at h
      exact .inr ⟨f, rfl, by rw [← h, endView, hs]; rfl⟩

/-- When a view command is refused: the first pixel without a value reads an unwritten location. -/
theorem renderView_of_gap {v : View} {op : Nibble} {pix : PixelFn Rgb} {s : State} {sp : Space} {a : Nat}
    (hc : s.snap.complete = false) (h : firstStop v.width v.height pix = some (.unwritten sp a)) :
    renderView v op pix s = .refused (.snapshotNotWritten sp a) := by
  simp [renderView, launchGap, hc, h, Stop.gap?]

end Sys2Proof.Machine
end

