-- ==== Sys2Proof/Laws/PerInstr.lean ====
section
/-!
SUPPORT. Statements about every instruction as syntax, one lemma per constructor.
-/

namespace Sys2Proof.Laws.OpcodeField

/-- The word of a well-formed instruction carries the instruction's opcode in bits 31:28 (R60, R61). -/
def Statement (i : Instr) : Prop := i.wellFormed = true → opField (encode i) = i.opcode

theorem tile (t : Nat) (h v : Bool) (x0 y0 : Nat) : Statement (.tile t h v x0 y0) := opField_encode
theorem resolve (g p : Nat) : Statement (.resolve g p) := opField_encode
theorem pattern (sel : Nat) : Statement (.pattern sel) := opField_encode
theorem nametable (b : Nat) : Statement (.nametable b) := opField_encode
theorem oamview : Statement .oamview := opField_encode
theorem colors : Statement .colors := opField_encode
theorem palette : Statement .palette := opField_encode

end Sys2Proof.Laws.OpcodeField
end

