-- ==== Sys2Proof/Laws/Views.lean ====
section
/-!
SUPPORT. What the pixel functions can do: on a complete snapshot none of them meets an unwritten location, and every
fault they raise is `OutOfRange`. With that, what each command body can answer.
-/

namespace Sys2Proof.Machine

/-! ### Evaluations that meet no unwritten location -/

/-- The evaluation does not end at an unwritten location. -/
def NoGap {α : Type} (x : Except Stop α) : Prop := ∀ sp a, x ≠ .error (.unwritten sp a)

theorem NoGap.ok {α : Type} (a : α) : NoGap (.ok a) := fun _ _ h => nomatch h

theorem NoGap.bind {α β : Type} {x : Except Stop α} {f : α → Except Stop β} (hx : NoGap x) (hf : ∀ a, NoGap (f a)) :
    NoGap (x >>= f) := by
  intro sp a h
  rcases bind_eq_error.mp h with h | ⟨b, _, h⟩
  · exact hx sp a h
  · exact hf b sp a h

theorem NoGap.checkedRead {w : Nat} {sp : Space} {m : Memory w} {i aux : Nat} (h : m.full sp.size = true) :
    NoGap (checkedRead sp m i aux) := by
  intro sp' a hEq
  rcases checkedRead_eq_error.mp hEq with ⟨_, he⟩ | ⟨hlt, hnone, _⟩
  · cases he
  · obtain ⟨v, hv⟩ := Memory.read_of_full h hlt
    rw [hnone] at hv; cases hv

/-- A complete snapshot, item by item. -/
theorem Snapshot.complete_iff (n : Snapshot) :
    n.complete = true ↔ n.ct.full 64 = true ∧ n.pal.full 32 = true ∧ n.chr.full 8192 = true ∧ n.nt.full 8192 = true ∧
      n.oam.full 256 = true ∧ n.tall.isSome = true ∧ n.bgsel.isSome = true := by
  simp [Snapshot.complete, and_assoc]

section Complete
variable {s : State} (h : s.snap.complete = true)
include h

theorem noGap_readCt (k aux : Nat) : NoGap (s.readCt k aux) :=
  .checkedRead ((Snapshot.complete_iff _).mp h).1
theorem noGap_readPal (a : Nat) : NoGap (s.readPal a) :=
  .checkedRead ((Snapshot.complete_iff _).mp h).2.1
theorem noGap_readChr (a : Nat) : NoGap (s.readChr a) :=
  .checkedRead ((Snapshot.complete_iff _).mp h).2.2.1
theorem noGap_readNt (b o : Nat) : NoGap (s.readNt b o) :=
  .checkedRead ((Snapshot.complete_iff _).mp h).2.2.2.1
theorem noGap_readOam (a : Nat) : NoGap (s.readOam a) :=
  .checkedRead ((Snapshot.complete_iff _).mp h).2.2.2.2.1

theorem noGap_readTall : NoGap s.readTall := by
  obtain ⟨b, hb⟩ := Option.isSome_iff_exists.mp ((Snapshot.complete_iff _).mp h).2.2.2.2.2.1
  rw [State.readTall, hb]; exact .ok b

theorem noGap_readBgsel : NoGap s.readBgsel := by
  obtain ⟨b, hb⟩ := Option.isSome_iff_exists.mp ((Snapshot.complete_iff _).mp h).2.2.2.2.2.2
  rw [State.readBgsel, hb]; exact .ok b

theorem noGap_tilePix (t r c : Nat) : NoGap (tilePix s t r c) :=
  .bind (noGap_readChr h _) fun _ => .bind (noGap_readChr h _) fun _ => .ok _

theorem noGap_tileGrid (t : Nat) (fh fv : Bool) (r c : Nat) : NoGap (tileGrid s t fh fv r c) := noGap_tilePix h _ _ _

theorem noGap_paletteColour (a : Nat) : NoGap (paletteColour s a) :=
  .bind (noGap_readPal h _) fun _ => .bind (noGap_readCt h _ _) fun _ => .ok _

theorem noGap_resolve (g p : Nat) : NoGap (resolve s g p) := noGap_paletteColour h _

theorem noGap_patternPix (sel x y : Nat) : NoGap (patternPix s sel x y) :=
  .bind (noGap_tilePix h _ _ _) fun _ => .ok _

theorem noGap_nametablePix (b x y : Nat) : NoGap (nametablePix s b x y) :=
  .bind (.bind (noGap_readNt h _ _) fun _ => .bind (noGap_readBgsel h) fun _ => .ok _) fun _ =>
    .bind (.bind (noGap_readNt h _ _) fun _ => .ok _) fun _ =>
      .bind (noGap_tilePix h _ _ _) fun _ => noGap_resolve h _ _

theorem noGap_spritePix (n r c : Nat) (tileOf : Byte → Nat) : NoGap (spritePix s n r c tileOf) :=
  .bind (noGap_readOam h _) fun _ => .bind (noGap_readOam h _) fun _ =>
    .bind (noGap_tileGrid h _ _ _ _ _) fun _ => noGap_resolve h _ _

theorem noGap_oamPix (x y : Nat) : NoGap (oamPix s x y) := by
  refine .bind (noGap_readTall h) fun tall => ?_
  split
  · exact noGap_spritePix h _ _ _ _
  · split
    · exact .bind (noGap_readBgsel h) fun _ => noGap_spritePix h _ _ _ _
    · exact .ok _

theorem noGap_colorsPix (x y : Nat) : NoGap (colorsPix s x y) := .bind (noGap_readCt h _ _) fun _ => .ok _

theorem noGap_palettePix (x y : Nat) : NoGap (palettePix s x y) := noGap_paletteColour h _

end Complete

/-- A loop whose pixels meet no unwritten location does not end at one. -/
theorem firstStop_gap_eq_none {α : Type} {w h : Nat} {pix : PixelFn α} (hpix : ∀ x y, NoGap (pix x y)) :
    (firstStop w h pix).bind Stop.gap? = none := by
  cases hs : firstStop w h pix with
  | none => rfl
  | some e =>
    obtain ⟨x, _, y, _, herr, _⟩ := firstStop_eq_some.mp hs
    cases e with
    | fault f => rfl
    | unwritten sp a => exact absurd herr (hpix x y sp a)

/-! ### Every fault of an evaluation is `OutOfRange` -/

/-- Every fault the evaluation raises is `OutOfRange`. -/
def OnlyOutOfRange {α : Type} (x : Except Stop α) : Prop := ∀ f, x = .error (.fault f) → f.cause = .outOfRange

theorem OnlyOutOfRange.ok {α : Type} (a : α) : OnlyOutOfRange (.ok a) := fun _ h => nomatch h

theorem OnlyOutOfRange.bind {α β : Type} {x : Except Stop α} {f : α → Except Stop β} (hx : OnlyOutOfRange x)
    (hf : ∀ a, OnlyOutOfRange (f a)) : OnlyOutOfRange (x >>= f) := by
  intro e h
  rcases bind_eq_error.mp h with h | ⟨b, _, h⟩
  · exact hx e h
  · exact hf b e h

theorem OnlyOutOfRange.checkedRead {w : Nat} {sp : Space} {m : Memory w} {i aux : Nat} :
    OnlyOutOfRange (checkedRead sp m i aux) := by
  intro f h
  rcases checkedRead_eq_error.mp h with ⟨_, he⟩ | ⟨_, _, he⟩
  · injection he with he; subst he; rfl
  · cases he

theorem onlyOutOfRange_readTall (s : State) : OnlyOutOfRange s.readTall := by
  unfold State.readTall; split
  · exact .ok _
  · intro f h; cases h

theorem onlyOutOfRange_readBgsel (s : State) : OnlyOutOfRange s.readBgsel := by
  unfold State.readBgsel; split
  · exact .ok _
  · intro f h; cases h

theorem onlyOutOfRange_tilePix (s : State) (t r c : Nat) : OnlyOutOfRange (tilePix s t r c) :=
  .bind .checkedRead fun _ => .bind .checkedRead fun _ => .ok _

theorem onlyOutOfRange_tileGrid (s : State) (t : Nat) (fh fv : Bool) (r c : Nat) :
    OnlyOutOfRange (tileGrid s t fh fv r c) := onlyOutOfRange_tilePix _ _ _ _

theorem onlyOutOfRange_paletteColour (s : State) (a : Nat) : OnlyOutOfRange (paletteColour s a) :=
  .bind .checkedRead fun _ => .bind .checkedRead fun _ => .ok _

theorem onlyOutOfRange_resolve (s : State) (g p : Nat) : OnlyOutOfRange (resolve s g p) :=
  onlyOutOfRange_paletteColour _ _

theorem onlyOutOfRange_patternPix (s : State) (sel x y : Nat) : OnlyOutOfRange (patternPix s sel x y) :=
  .bind (onlyOutOfRange_tilePix _ _ _ _) fun _ => .ok _

theorem onlyOutOfRange_nametablePix (s : State) (b x y : Nat) : OnlyOutOfRange (nametablePix s b x y) :=
  .bind (.bind .checkedRead fun _ => .bind (onlyOutOfRange_readBgsel s) fun _ => .ok _) fun _ =>
    .bind (.bind .checkedRead fun _ => .ok _) fun _ =>
      .bind (onlyOutOfRange_tilePix _ _ _ _) fun _ => onlyOutOfRange_resolve _ _ _

theorem onlyOutOfRange_spritePix (s : State) (n r c : Nat) (tileOf : Byte → Nat) :
    OnlyOutOfRange (spritePix s n r c tileOf) :=
  .bind .checkedRead fun _ => .bind .checkedRead fun _ =>
    .bind (onlyOutOfRange_tileGrid _ _ _ _ _ _) fun _ => onlyOutOfRange_resolve _ _ _

theorem onlyOutOfRange_oamPix (s : State) (x y : Nat) : OnlyOutOfRange (oamPix s x y) := by
  refine .bind (onlyOutOfRange_readTall s) fun tall => ?_
  split
  · exact onlyOutOfRange_spritePix _ _ _ _ _
  · split
    · exact .bind (onlyOutOfRange_readBgsel s) fun _ => onlyOutOfRange_spritePix _ _ _ _ _
    · exact .ok _

theorem onlyOutOfRange_colorsPix (s : State) (x y : Nat) : OnlyOutOfRange (colorsPix s x y) :=
  .bind .checkedRead fun _ => .ok _

theorem onlyOutOfRange_palettePix (s : State) (x y : Nat) : OnlyOutOfRange (palettePix s x y) :=
  onlyOutOfRange_paletteColour _ _

/-! ### The pixel function of a view command -/

/-- The pixel function of a view command (R103, R113, R127, R135, R137); `TILE` and `RESOLVE` render nothing. -/
def pixelsOf (i : Instr) (s : State) : PixelFn Rgb :=
  match i with
  | .pattern sel => patternPix s sel
  | .nametable b => nametablePix s b
  | .oamview => oamPix s
  | .colors => colorsPix s
  | .palette => palettePix s
  | .tile .. => fun _ _ => .ok 0
  | .resolve .. => fun _ _ => .ok 0

theorem noGap_pixelsOf {s : State} (h : s.snap.complete = true) (i : Instr) (x y : Nat) : NoGap (pixelsOf i s x y) := by
  cases i with
  | tile => exact .ok _
  | resolve => exact .ok _
  | pattern sel => exact noGap_patternPix h _ _ _
  | nametable b => exact noGap_nametablePix h _ _ _
  | oamview => exact noGap_oamPix h _ _
  | colors => exact noGap_colorsPix h _ _
  | palette => exact noGap_palettePix h _ _

theorem onlyOutOfRange_pixelsOf (i : Instr) (s : State) (x y : Nat) : OnlyOutOfRange (pixelsOf i s x y) := by
  cases i with
  | tile => exact .ok _
  | resolve => exact .ok _
  | pattern sel => exact onlyOutOfRange_patternPix _ _ _ _
  | nametable b => exact onlyOutOfRange_nametablePix _ _ _ _
  | oamview => exact onlyOutOfRange_oamPix _ _ _
  | colors => exact onlyOutOfRange_colorsPix _ _ _
  | palette => exact onlyOutOfRange_palettePix _ _ _

/-- The launch premise spares the search and changes nothing: the refusal is always that of the first pixel that has no
value (R172 (a), R159). -/
theorem launchGap_eq {i : Instr} {v : View} {s : State} :
    launchGap v.width v.height (pixelsOf i s) s = (firstStop v.width v.height (pixelsOf i s)).bind Stop.gap? := by
  unfold launchGap
  split
  · exact (firstStop_gap_eq_none (noGap_pixelsOf ‹_› i)).symm
  · rfl

/-- The body of a view command renders its pixel function. -/
theorem bodyOf_view {i : Instr} {v : View} (h : viewOf i = some v) (s : State) :
    bodyOf i s = renderView v i.opcode (pixelsOf i s) s := by
  cases i <;> simp only [viewOf, Option.some.injEq, reduceCtorEq] at h <;> subst h <;> rfl

/-- A view command is its body behind the readiness check (R152). -/
theorem exec_view {i : Instr} {v : View} (h : viewOf i = some v) (s : State) :
    exec i s = ifSurfaceReady v i.opcode (bodyOf i) s := by
  cases i <;> simp only [viewOf, Option.some.injEq, reduceCtorEq] at h <;> subst h <;> rfl

/-- `TILE` and `RESOLVE` are their bodies: they have no readiness input (R152). -/
theorem exec_no_view {i : Instr} (h : viewOf i = none) (s : State) : exec i s = bodyOf i s := by
  cases i <;> simp only [viewOf, reduceCtorEq] at h <;> rfl

/-- What the body of a view command can answer as a next state: the whole surface written, every pixel having a value,
or the first `OutOfRange` in raster order taken and the surface unspecified (R55, R159, R166). -/
theorem bodyOf_view_next {i : Instr} {v : View} {s t : State} (h : viewOf i = some v) (ht : bodyOf i s = .next t) :
    ((∀ x < v.width, ∀ y < v.height, ∃ c, pixelsOf i s x y = .ok c) ∧
        t = complete (s.setSurface v (frameOf v.width v.height (pixelsOf i s)))) ∨
      ∃ f, f.cause = .outOfRange ∧ firstStop v.width v.height (pixelsOf i s) = some (.fault f) ∧
        t = raiseFault i.opcode f (spoilSurface v s) := by
  rw [bodyOf_view h] at ht
  rcases renderView_next (fun hc => firstStop_gap_eq_none (noGap_pixelsOf hc i)) ht with h | ⟨f, hf, he⟩
  · exact .inl h
  · obtain ⟨x, _, y, _, herr, _⟩ := firstStop_eq_some.mp hf
    exact .inr ⟨f, onlyOutOfRange_pixelsOf i s x y f herr, hf, he⟩

/-- What a command can answer as a next state: a surface error (R157), or what its body answers (R158 step 6). -/
theorem exec_next {i : Instr} {s t : State} (h : exec i s = .next t) :
    (∃ v, viewOf i = some v ∧ s.surfOk.get v = false ∧ t = raiseSurfaceError i.opcode v s) ∨
      ((∀ v, viewOf i = some v → s.surfOk.get v = true) ∧ bodyOf i s = .next t) := by
  cases hv : viewOf i with
  | none =>
    rw [exec_no_view hv] at h
    exact .inr ⟨(by intro v hv'; cases hv'), h⟩
  | some v =>
    rw [exec_view hv] at h
    cases ho : s.surfOk.get v with
    | true => rw [ifSurfaceReady_ready ho] at h; exact .inr ⟨(by intro u hu; cases hu; exact ho), h⟩
    | false => rw [ifSurfaceReady_not_ready ho] at h; exact .inl ⟨v, rfl, ho, (Host.Outcome.next.inj h).symm⟩

/-- What `TILE` can answer as a next state: the square written (R84), or `OutOfRange` taken and nothing written (R85). -/
theorem tileBody_next {t x0 y0 : Nat} {h v : Bool} {s s' : State} (hs : tileBody t h v x0 y0 s = .next s') :
    (tileFits x0 y0 = true ∧ (∀ c < 8, ∀ r < 8, ∃ p, tileGrid s t h v r c = .ok p) ∧
        s' = complete (s.setIx (writeSquare s.ix x0 y0 fun c r => pixelValue (tileGrid s t h v r c)))) ∨
      ∃ f, f.cause = .outOfRange ∧ s' = raiseFault opTile f s := by
  unfold tileBody at hs
  split at hs
  · rename_i hfit
    split at hs
    · rename_i e he
      cases e with
      | unwritten sp a => cases hs
      | fault f =>
        obtain ⟨c, _, r, _, herr, _⟩ := firstStop_eq_some.mp he
        exact .inr ⟨f, onlyOutOfRange_tileGrid _ _ _ _ _ _ f herr, (Host.Outcome.next.inj hs).symm⟩
    · exact .inl ⟨hfit, firstStop_eq_none.mp ‹_›, (Host.Outcome.next.inj hs).symm⟩
  · refine .inr ⟨tileOutOfRange x0 y0, ?_, (Host.Outcome.next.inj hs).symm⟩
    unfold tileOutOfRange; split <;> rfl

/-- What `RESOLVE` can answer as a next state: `RGB` written (R94), or `OutOfRange` taken and `RGB` kept (R166). -/
theorem resolveBody_next {g p : Nat} {s s' : State} (hs : resolveBody g p s = .next s') :
    (∃ c, resolve s g p = .ok c ∧ s' = complete (s.setRgb (c.setWidth 32))) ∨
      ∃ f, f.cause = .outOfRange ∧ resolve s g p = .error (.fault f) ∧ s' = raiseFault opResolve f s := by
  unfold resolveBody at hs
  split at hs
  · exact .inl ⟨_, ‹_›, (Host.Outcome.next.inj hs).symm⟩
  · rename_i e he
    cases e with
    | unwritten sp a => cases hs
    | fault f => exact .inr ⟨f, onlyOutOfRange_resolve _ _ _ f he, he, (Host.Outcome.next.inj hs).symm⟩

end Sys2Proof.Machine
end

