-- ==== Sys2Proof/Laws/Step.lean ====
section
/-!
SUPPORT. The command shell: what a step does with its event, and what reset, `Overrun` and `IllegalCmd` change.
-/

namespace Sys2Proof.Machine

theorem step_of_event {s : State} {e : Event} {rest : List Event} (h : s.inputs = e :: rest) :
    step s = applyEvent e (s.setInputs rest) := by simp [step, nextMove, h]

theorem step_of_no_event {s : State} (h : s.inputs = []) : step s = finishCommand s := by simp [step, nextMove, h]

theorem step_setInputs (s : State) (e : Event) (rest : List Event) :
    step (s.setInputs (e :: rest)) = applyEvent e (s.setInputs rest) := rfl

theorem setInputs_self {s : State} {l : List Event} (h : s.inputs = l) : s.setInputs l = s := by
  subst h; rfl

/-! ### Reset (R170, R33) -/

@[simp] theorem resetBlock_snap (s : State) : (resetBlock s).snap = s.snap := rfl
@[simp] theorem resetBlock_surfOk (s : State) : (resetBlock s).surfOk = s.surfOk := rfl
@[simp] theorem resetBlock_params (s : State) : (resetBlock s).params = s.params := rfl
@[simp] theorem resetBlock_ix (s : State) : (resetBlock s).ix = [] := rfl
@[simp] theorem resetBlock_surfaces (s : State) : (resetBlock s).surfaces = .empty := rfl
@[simp] theorem resetBlock_status (s : State) : (resetBlock s).status = .zero := rfl
@[simp] theorem resetBlock_rgb (s : State) : (resetBlock s).rgb = 0 := rfl
@[simp] theorem resetBlock_finfo (s : State) : (resetBlock s).finfo = .zero := rfl
@[simp] theorem resetBlock_latched (s : State) : (resetBlock s).latched = none := rfl
@[simp] theorem resetBlock_inputs (s : State) : (resetBlock s).inputs = s.inputs := rfl
@[simp] theorem resetBlock_readData (s : State) : (resetBlock s).readData = s.readData := rfl
@[simp] theorem resetBlock_freeIndex (s : State) : (resetBlock s).freeIndex = s.freeIndex := rfl
@[simp] theorem resetBlock_surface (s : State) (v : View) : (resetBlock s).surface v = [] := by
  simp [State.surface]

/-! ### `IllegalCmd` (R154) -/

theorem illegal_eq {w : Word} {s : State} (h : s.status.fault = false) :
    illegal w s =
      ((clearReport s).endCommand (s.status.cleared.faulted 4 (opField w))).setFinfo (illegalCmd w).finfo := by
  rw [illegal, raiseFault_of_healthy (by simpa using h)]; rfl

/-! ### `Overrun` (R155) -/

theorem overrun_of_latched {w w₀ : Word} {i : Instr} {s : State} (hl : s.latched = some w₀)
    (hd : decode w₀ = .ok i) : overrun w s = raiseFault (opField w) overrunInfo (spoilDestination i s) := by
  simp [overrun, hl, hd]

/-! ### The command write (R158) -/

theorem cmdWrite_of_busy {w : Word} {s : State} (h : s.status.busy = true) : cmdWrite w s = .next (overrun w s) := by
  simp [cmdWrite, h]

theorem cmdWrite_of_fault {w : Word} {s : State} (hb : s.status.busy = false) (hf : s.status.fault = true) :
    cmdWrite w s = .next s := by simp [cmdWrite, hb, hf]

theorem cmdWrite_of_illegal {w : Word} {s : State} {r : DecodeReject} (hb : s.status.busy = false)
    (hf : s.status.fault = false) (hd : decode w = .error r) : cmdWrite w s = .next (illegal w s) := by
  simp [cmdWrite, hb, hf, hd]

theorem cmdWrite_of_command {w : Word} {s : State} {i : Instr} (hb : s.status.busy = false)
    (hf : s.status.fault = false) (hd : decode w = .ok i) : cmdWrite w s = exec i (acceptCommand w s) := by
  simp [cmdWrite, hb, hf, hd]

theorem cmdBegin_of_busy {w : Word} {s : State} (h : s.status.busy = true) : cmdBegin w s = overrun w s := by
  simp [cmdBegin, h]

theorem cmdBegin_of_fault {w : Word} {s : State} (hb : s.status.busy = false) (hf : s.status.fault = true) :
    cmdBegin w s = s := by simp [cmdBegin, hb, hf]

theorem cmdBegin_of_illegal {w : Word} {s : State} {r : DecodeReject} (hb : s.status.busy = false)
    (hf : s.status.fault = false) (hd : decode w = .error r) : cmdBegin w s = illegal w s := by
  simp [cmdBegin, hb, hf, hd]

theorem cmdBegin_of_command {w : Word} {s : State} {i : Instr} (hb : s.status.busy = false)
    (hf : s.status.fault = false) (hd : decode w = .ok i) :
    cmdBegin w s = sampleSurface i (acceptCommand w s) := by
  simp [cmdBegin, hb, hf, hd]

theorem finishCommand_of_idle {s : State} (h : s.latched = none) : finishCommand s = .next s := by
  simp [finishCommand, h]

theorem finishCommand_of_latched {s : State} {w : Word} {i : Instr} (h : s.latched = some w) (hd : decode w = .ok i) :
    finishCommand s = bodyOf i s := by simp [finishCommand, h, hd]

/-! ### A launch (log 5) -/

@[simp] theorem launchSnapshot_ct (n : Snapshot) : (launchSnapshot n).ct = launchFill 64 n.ct := by simp only [launchSnapshot]
@[simp] theorem launchSnapshot_pal (n : Snapshot) : (launchSnapshot n).pal = launchFill 32 n.pal := by simp only [launchSnapshot]
@[simp] theorem launchSnapshot_chr (n : Snapshot) : (launchSnapshot n).chr = launchFill 8192 n.chr := by simp only [launchSnapshot]
@[simp] theorem launchSnapshot_nt (n : Snapshot) : (launchSnapshot n).nt = launchFill 8192 n.nt := by simp only [launchSnapshot]
@[simp] theorem launchSnapshot_oam (n : Snapshot) : (launchSnapshot n).oam = launchFill 256 n.oam := by simp only [launchSnapshot]
@[simp] theorem launchSnapshot_tall (n : Snapshot) : (launchSnapshot n).tall = some (n.tall.getD false) := by simp only [launchSnapshot]
@[simp] theorem launchSnapshot_bgsel (n : Snapshot) : (launchSnapshot n).bgsel = some (n.bgsel.getD 0) := by simp only [launchSnapshot]

/-- A launch writes every location of the space and keeps what was written. -/
theorem read_launchFill {w : Nat} (n : Nat) (m : Memory w) {a : Nat} (h : a < n) :
    (launchFill n m).read a = some ((m.read a).getD 0) := by
  rw [launchFill, Memory.read_tabulate, if_pos h]

/-- The premise of R172 (a) holds after a launch. -/
theorem complete_launchSnapshot (n : Snapshot) : (launchSnapshot n).complete = true := by
  simp [Snapshot.complete, launchFill, Memory.full_tabulate]

@[simp] theorem withFetchWord_snap (s : State) (nbits w : Nat) : (s.withFetchWord nbits w).snap = launchSnapshot s.snap :=
  rfl
@[simp] theorem withFetchWord_inputs (s : State) (nbits w : Nat) :
    (s.withFetchWord nbits w).inputs = .cmd (BitVec.ofNat 32 (w % 2 ^ nbits)) :: s.inputs := rfl
@[simp] theorem withFetchWord_status (s : State) (nbits w : Nat) : (s.withFetchWord nbits w).status = s.status := rfl

/-! ### Moves of the other agents -/

theorem provide_next {sp : Space} {inside : Bool} {a : Nat} {n : Snapshot} {s t : State}
    (h : provide sp inside a n s = .next t) : s.status.busy = false ∧ inside = true ∧ t = s.setSnap n := by
  unfold provide at h
  split at h
  · cases h
  · split at h
    · exact ⟨by simp_all, ‹_›, (Host.Outcome.next.inj h).symm⟩
    · cases h

theorem readOutput_next {w : Nat} {sp : Space} {m : Memory w} {inside : Bool} {a : Nat} {s t : State}
    (h : readOutput sp m inside a s = .next t) :
    s.status.busy = false ∧ inside = true ∧ ∃ v, m.read a = some v ∧ t = s.setReadData (v.setWidth 32) := by
  unfold readOutput at h
  split at h
  · cases h
  · split at h
    · split at h
      · exact ⟨by simp_all, ‹_›, _, ‹_›, (Host.Outcome.next.inj h).symm⟩
      · cases h
    · cases h

theorem afterRegisterRead_eq (s : State) (off : Nat) :
    afterRegisterRead s off = s ∨ afterRegisterRead s off = s.drawFree := by
  unfold afterRegisterRead; split <;> simp

/-- A host write is ignored or is a `CMD` write (R22, R23). -/
theorem hostWrite_next {addr bytes : Nat} {v : Word} {s t : State} (h : hostWrite addr bytes v s = .next t) :
    t = s ∨ cmdWrite v s = .next t := by
  unfold hostWrite at h
  split at h
  · cases h
  · exact .inr h
  · exact .inl (Host.Outcome.next.inj h).symm

/-- A host read changes the reader's data, and at most the counter of free values beside it (R47). -/
theorem hostRead_next {addr bytes : Nat} {s t : State} (h : hostRead addr bytes s = .next t) :
    ∃ d, t = s.setReadData d ∨ t = s.drawFree.setReadData d := by
  unfold hostRead at h
  split at h
  · cases h
  · rename_i off _
    obtain rfl := Host.Outcome.next.inj h
    rcases afterRegisterRead_eq s off with he | he <;> rw [he]
    · exact ⟨_, .inl rfl⟩
    · exact ⟨_, .inr rfl⟩

end Sys2Proof.Machine
end

