-- ==== Sys2Proof/Tests/Slice0.lean ====
section
/-!
SUPPORT. Tests. Expected values are those of spec/95_test_vectors.md (a test names its part there) or of an example in a
rule; the witnesses show that the hypotheses of each statement can be met together.
-/

namespace Sys2Proof.Tests

open Sys2Proof.Machine Sys2Proof.Claims

/-! ### WellFormed: each check refuses an operand one past its range -/

theorem test_wf_tile_number : (Instr.tile 512 false false 0 0).wellFormed = false := by decide
theorem test_wf_tile_x0 : (Instr.tile 0 false false 256 0).wellFormed = false := by decide
theorem test_wf_tile_y0 : (Instr.tile 0 false false 0 256).wellFormed = false := by decide
theorem test_wf_resolve_group : (Instr.resolve 8 0).wellFormed = false := by decide
theorem test_wf_resolve_pixel : (Instr.resolve 0 4).wellFormed = false := by decide
theorem test_wf_pattern_sel : (Instr.pattern 2).wellFormed = false := by decide
theorem test_wf_nametable_bank : (Instr.nametable 4).wellFormed = false := by decide

/-! ### Decode: words of section 2.1, written out field by field -/

/-- `TILE 0x105, 1, 0, 16, 8`: opcode, reserved, y0, x0, v, h, T. -/
theorem test_decode_tile :
    decode (0x1#4 ++ 0#1 ++ 0b00001000#8 ++ 0b00010000#8 ++ 0#1 ++ 1#1 ++ 0b100000101#9) =
      .ok (.tile 0x105 true false 16 8) := by decide
/-- `RESOLVE 5, 2`: opcode, reserved, g, p. -/
theorem test_decode_resolve : decode (0x2#4 ++ 0#23 ++ 0b101#3 ++ 0b10#2) = .ok (.resolve 5 2) := by decide
theorem test_decode_pattern : decode (0x3#4 ++ 0#27 ++ 1#1) = .ok (.pattern 1) := by decide
theorem test_decode_nametable : decode (0x4#4 ++ 0#26 ++ 0b11#2) = .ok (.nametable 3) := by decide
theorem test_decode_oamview : decode (0x5#4 ++ 0#28) = .ok .oamview := by decide
theorem test_decode_colors : decode (0x6#4 ++ 0#28) = .ok .colors := by decide
theorem test_decode_palette : decode (0x7#4 ++ 0#28) = .ok .palette := by decide
theorem test_decode_illegal_opcodes : [0x00000000, 0x80000000, 0xFFFFFFFF].all (fun w => decode w == .error .opcode) := by
  decide
theorem test_decode_reserved_bits :
    [0x18000000, 0x20000020, 0x30000002, 0x40000004, 0x50000001, 0x60000001, 0x70000001].all
      (fun w => decode w == .error .reserved) := by decide
theorem test_encode_section_2_1 :
    encode (.tile 0 true true 248 232) = 0x1747C600 ∧ encode (.tile 511 false false 4 4) = 0x102021FF ∧
      encode (.resolve 7 3) = 0x2000001F := by decide
theorem test_assembly : (Instr.tile 261 true false 16 8).assembly = "TILE 261, 1, 0, 16, 8" := by decide
theorem test_decodeTableWord : decodeTableWord 32 0x10408305 = some (.tile 0x105 true false 16 8) := by decide

/-! ### The snapshot S0 of section "The test snapshot S0" -/

/-- `PAL` of S0. -/
def pal0 (a : Nat) : Byte := BitVec.ofNat 8 ((2 * a + 1) % 64)

/-- `PAL` of S0 with one byte set to 64. -/
def pal64 (bad a : Nat) : Byte := if a = bad then 64 else pal0 a

def snap0 (pal : Nat → Byte) (tall : Bool) (bg : BitVec 1) : Snapshot :=
  { ct := .tabulate 64 fun i => BitVec.ofNat 32 (4 * i * 65536 + (255 - 4 * i) * 256 + i)
    pal := .tabulate 32 pal
    chr := .tabulate 8192 fun a => BitVec.ofNat 8 (a * 37 + a / 256 * 11 + 5)
    nt := .tabulate 8192 fun k => BitVec.ofNat 8 (k % 2048 * 5 + k / 2048 * 17 + k % 2048 / 32)
    oam := .tabulate 256 fun a => BitVec.ofNat 8 (a * 29 + 7 + a / 4)
    tall := some tall
    bgsel := some bg }

/-- Reset, with S0 provided. -/
def s0 (pal : Nat → Byte) (tall : Bool) (bg : BitVec 1) : State := State.reset.setSnap (snap0 pal tall bg)

/-- `STATUS` and `FINFO` after one step. -/
def report (s : State) : Option (Word × Word) := (nextOf (step s)).map fun t => (t.status.word, t.finfo.word)

/-- Row `y` of `IX`, eight cells from `x`, after one step. -/
def ixRow (s : State) (x y : Nat) : Option (List (Option PixVal)) :=
  (nextOf (step s)).map fun t => (List.range 8).map fun c => t.ix.read (ixKey (x + c) y)

/-- Reset, with `CT` and `PAL` of S0 and only the given bytes of the other spaces. -/
def some0 (chr nt oam : Memory 8) (tall : Bool) (bg : BitVec 1) : State :=
  State.reset.setSnap { snap0 pal0 tall bg with chr := chr, nt := nt, oam := oam }

/-! ### `TILE` (section 2.2) -/

/-- The hand tile A. -/
def handA : State :=
  State.reset.setSnap { Snapshot.empty with
    chr := [(16, 0x80), (17, 0x40), (18, 0x20), (19, 0x10), (20, 0x08), (21, 0x04), (22, 0x02), (23, 0x01),
      (24, 0xFF), (25, 0), (26, 0), (27, 0), (28, 0), (29, 0), (30, 0), (31, 0x0F)] }

theorem test_tile_handA_hflip :
    ixRow (handA.setInputs [.cmd 0x10000201]) 0 0 = some [some 2, some 2, some 2, some 2, some 2, some 2, some 2, some 3] ∧
    ixRow (handA.setInputs [.cmd 0x10000201]) 0 7 = some [some 3, some 2, some 2, some 2, some 0, some 0, some 0, some 0] := by
  decide +kernel
theorem test_tile_bounds :
    report ((s0 pal0 false 0).setInputs [.cmd 0x1007C800]) = some (0x116, 0x000600F9) ∧
    report ((s0 pal0 false 0).setInputs [.cmd 0x17480000]) = some (0x116, 0x001600E9) ∧
    report ((s0 pal0 false 0).setInputs [.cmd 0x17FFF800]) = some (0x116, 0x000600FF) := by decide +kernel

/-! ### `RESOLVE` (section 2.3) -/

theorem test_resolve_5_2 :
    (nextOf (step ((s0 pal0 false 0).setInputs [.cmd 0x20000016]))).map (fun t => (t.rgb, t.status.word)) =
      some (0x00B44B2D, 2) := by decide +kernel
theorem test_resolve_bad_byte : report ((s0 (pal64 10) false 0).setInputs [.cmd 0x2000000A]) = some (0x216, 0x00A10040) := by
  decide +kernel

/-! ### The views (sections 2.4 to 2.7): pixels, and one whole step where the surface is small -/

/-- Line 0 of `PATTERN 1`, first 8 pixels (tile 256). -/
theorem test_pattern_line_0 :
    (List.range 8).map (fun x => (patternPix (some0 [(4096, 0xB5), (4104, 0xDD)] [] [] false 0) 1 x 0).toOption) =
      [0x000000, 0x555555, 0xAAAAAA, 0x000000, 0x555555, 0x000000, 0xFFFFFF, 0x000000].map some := by decide +kernel
/-- Line 100 of `NAMETABLE 0`, pixels 96 to 103 (tile 200, row 4). -/
theorem test_nametable_line_100 :
    (List.range 8).map (fun x =>
        (nametablePix (some0 [(3204, 0x9D), (3212, 0xC5)] [(396, 200), (987, 0x65)] [] false 0) 0 (96 + x) 100).toOption) =
      [0x3CC30F, 0x34CB0D, 0x04FB01, 0x2CD30B, 0x2CD30B, 0x3CC30F, 0x04FB01, 0x3CC30F].map some := by decide +kernel
/-- Line 0 of `NAMETABLE 0` with `BGSEL = 1`, first 4 pixels (tile 256). -/
theorem test_nametable_bgsel :
    (List.range 4).map (fun x =>
        (nametablePix (some0 [(4096, 0xB5), (4104, 0xDD)] [(0, 0), (960, 0xDE)] [] false 1) 0 x 0).toOption) =
      [0x5CA317, 0x54AB15, 0x4CB313, 0x5CA317].map some := by decide +kernel
/-- `TALL = 1`, sprite 1 (flipped vertically): line 0 is row 7 of tile 408, line 8 is row 7 of tile 409. -/
theorem test_oam_tall_vflip :
    [(8, 0), (9, 0), (10, 0), (8, 8), (9, 8), (10, 8), (11, 8)].map (fun q =>
        (oamPix (some0 [(6535, 0x9B), (6543, 0xC3), (6551, 0xEB), (6559, 0x13)] [] [(5, 0x99), (6, 0xB6)] true 0)
          q.1 q.2).toOption) =
      [0xDC2337, 0xD42B35, 0x04FB01, 0xCC3333, 0xCC3333, 0xCC3333, 0xD42B35].map some := by decide +kernel
/-- `TALL = 0`, `BGSEL = 0`: sprite 0 (flipped horizontally, tile 292), and the filled lower half of its cell. -/
theorem test_oam_short_hflip_and_fill :
    [(0, 0), (1, 0), (2, 0), (3, 0), (4, 0), (0, 8)].map (fun q =>
        (oamPix (some0 [(4672, 0x0B), (4680, 0x33)] [] [(1, 0x24), (2, 0x41)] false 0) q.1 q.2).toOption) =
      [0xBC432F, 0xBC432F, 0x04FB01, 0xAC532B, 0xB44B2D, 0x000000].map some := by decide +kernel
/-- R136's example: bytes 51 to 53 of `FB_COLORS` are pixel `(1, 1)`. -/
theorem test_colors_step :
    (nextOf (step ((some0 [] [] [] false 0).setInputs [.cmd 0x60000000]))).map
        (fun t => (t.status.word, [51, 52, 53].map (t.surface .colors).read)) =
      some (2, [some 0x44, some 0xBB, some 0x11]) := by decide +kernel
/-- Pixel `(4, 0)` of `PALETTE` shows `CT[PAL[0]]`; with `PAL[10] = 64` it faults at entry 10. -/
theorem test_palette_step :
    (nextOf (step ((some0 [] [] [] false 0).setInputs [.cmd 0x70000000]))).map
        (fun t => [12, 13, 14].map (t.surface .palette).read) = some [some 0x04, some 0xFB, some 0x01] ∧
    report ((s0 (pal64 10) false 0).setInputs [.cmd 0x70000000]) = some (0x716, 0x00A10040) := by decide +kernel

/-! ### Faults, surface errors, the life of a command (section 2.8) -/

theorem test_illegal_words :
    report (State.reset.setInputs [.cmd 0x00000000]) = some (0x46, 0x00070000) ∧
    report (State.reset.setInputs [.cmd 0x18000000]) = some (0x146, 0x08070000) ∧
    report (State.reset.setInputs [.cmdBegin 0xFFFFFFFF]) = some (0xF46, 0x0FF7FFFF) := by decide
theorem test_surface_error :
    report ((State.reset.setSurfOk ⟨false, true, true, true, true⟩).setInputs [.cmd 0x30000001]) =
      some (0x32A, 0x00080000) ∧
    report ((State.reset.setSurfOk ⟨true, true, false, true, true⟩).setInputs [.cmdBegin 0x50000000]) =
      some (0x52A, 0x00080002) := by decide
theorem test_overrun :
    ((nextOf (step (handA.setInputs [.cmdBegin 0x10000001, .cmd 0x70000000]))).bind fun t => report t) =
      some (0x756, 0) := by decide +kernel
theorem test_host_reads_status :
    (nextOf (step ((handA.setStatus ⟨true, false, false, false, 0, 0⟩).setInputs [.hostRead 4 4]))).map (·.readData) =
      some 1 := by decide
/-- The Sink makes one surface not ready, while a command is in flight (R24, R180). -/
theorem test_drive_surf_ok :
    (nextOf (step ((handA.setStatus ⟨true, false, false, false, 0, 0⟩).setInputs [.driveSurfOk .oam false]))).map
      (·.surfOk) = some ⟨true, true, false, true, true⟩ := by decide

/-! ### A launch runs the launched word as the first step after reset -/

theorem test_launch_tile : (nextOf (step (State.reset.withFetchWord 32 0x10000000))).isSome = true := by decide +kernel

/-! ### Witnesses -/

/-- Every snapshot location a command may read holds a value, and every `PAL` byte is a colour index. -/
structure Good (s : State) : Prop where
  ct : ∀ k < 64, ∃ v, s.snap.ct.read k = some v
  pal : ∀ a < 32, ∃ v : Byte, s.snap.pal.read a = some v ∧ v.toNat < 64
  chr : ∀ a < 8192, ∃ v, s.snap.chr.read a = some v
  nt : ∀ a < 8192, ∃ v, s.snap.nt.read a = some v
  oam : ∀ a < 256, ∃ v, s.snap.oam.read a = some v
  tall : ∃ v, s.snap.tall = some v
  bgsel : ∃ v, s.snap.bgsel = some v

theorem exists_read_tabulate {w n a : Nat} (f : Nat → BitVec w) (h : a < n) : ∃ v, (Memory.tabulate n f).read a = some v :=
  ⟨f a, by rw [Memory.read_tabulate, if_pos h]⟩

theorem s0_chr (pal : Nat → Byte) (tall : Bool) (bg : BitVec 1) {a : Nat} (h : a < 8192) :
    (s0 pal tall bg).snap.chr.read a = some (BitVec.ofNat 8 (a * 37 + a / 256 * 11 + 5)) := by
  simp only [s0, State.setSnap_snap, snap0]; rw [Memory.read_tabulate, if_pos h]

theorem s0_nt (pal : Nat → Byte) (tall : Bool) (bg : BitVec 1) {k : Nat} (h : k < 8192) :
    (s0 pal tall bg).snap.nt.read k = some (BitVec.ofNat 8 (k % 2048 * 5 + k / 2048 * 17 + k % 2048 / 32)) := by
  simp only [s0, State.setSnap_snap, snap0]; rw [Memory.read_tabulate, if_pos h]

theorem good_s0 (tall : Bool) (bg : BitVec 1) : Good (s0 pal0 tall bg) where
  ct _ h := by simp only [s0, State.setSnap_snap, snap0]; exact exists_read_tabulate _ h
  pal a h := ⟨pal0 a, by simp only [s0, State.setSnap_snap, snap0]; rw [Memory.read_tabulate, if_pos h], by
    rw [pal0, BitVec.toNat_ofNat]; omega⟩
  chr _ h := by simp only [s0, State.setSnap_snap, snap0]; exact exists_read_tabulate _ h
  nt _ h := by simp only [s0, State.setSnap_snap, snap0]; exact exists_read_tabulate _ h
  oam _ h := by simp only [s0, State.setSnap_snap, snap0]; exact exists_read_tabulate _ h
  tall := ⟨tall, rfl⟩
  bgsel := ⟨bg, rfl⟩

theorem good_pokeNt {s : State} (h : Good s) (b o : Nat) (v : Byte) : Good (pokeNt b o v s) where
  ct := h.ct
  pal := h.pal
  chr := h.chr
  nt a ha := by
    rw [pokeNt, State.setSnap_snap, Memory.read_write]
    split
    · exact ⟨v, rfl⟩
    · exact h.nt a ha
  oam := h.oam
  tall := h.tall
  bgsel := h.bgsel

theorem Good.tile {s : State} (h : Good s) {t r c : Nat} (ht : t < 512) (hr : r < 8) : ∃ p, TilePixelIs s t r c p := by
  obtain ⟨p0, h0⟩ := h.chr (16 * t + r) (by omega)
  obtain ⟨p1, h1⟩ := h.chr (16 * t + 8 + r) (by omega)
  exact ⟨planePixel p0 p1 c, p0, p1, h0, h1, by simp [planePixel], by simp [planePixel]⟩

theorem Good.colour {s : State} (h : Good s) {a : Nat} (ha : a < 32) : ∃ c, ColourAt s a c := by
  obtain ⟨k, hk, hlt⟩ := h.pal a ha
  obtain ⟨e, he⟩ := h.ct k.toNat hlt
  exact ⟨_, k, e, hk, hlt, he, rfl⟩

theorem groupAddr_lt {g : Nat} (hg : g < 8) (p : PixVal) : groupAddr g p.toNat < 32 := by
  have := p.isLt; unfold groupAddr; split <;> omega

theorem Good.cell {s : State} (h : Good s) {b x y : Nat} (hb : b < 4) (hx : x < 256) (hy : y < 240) :
    ∃ t g, NametableCell s b x y t g ∧ t < 512 ∧ g < 4 := by
  have hbase := s.params.ntAttrBase.isLt
  obtain ⟨idx, hi⟩ := h.nt (2048 * b + (y / 8 * 32 + x / 8)) (by omega)
  obtain ⟨attr, ha⟩ := h.nt (2048 * b + (s.params.ntAttrBase.val + y / 8 / 4 * 8 + x / 8 / 4)) (by omega)
  obtain ⟨bg, hbg⟩ := h.bgsel
  have := idx.isLt; have := bg.isLt
  exact ⟨_, _, ⟨idx, attr, bg, hi, hbg, ha, rfl, rfl⟩, by omega, Nat.mod_lt _ (by omega)⟩

theorem Good.nametable {s : State} (h : Good s) {b x y : Nat} (hb : b < 4) (hx : x < 256) (hy : y < 240) :
    ∃ c, NametablePixelIs s b x y c := by
  obtain ⟨t, g, hcell, ht, hg⟩ := h.cell hb hx hy
  obtain ⟨p, hp⟩ := h.tile (c := x % 8) ht (Nat.mod_lt y (by omega))
  obtain ⟨c, hc⟩ := h.colour (groupAddr_lt (Nat.lt_trans hg (by omega)) p)
  exact ⟨c, _, ⟨t, g, p, hcell, hp, rfl⟩, hc⟩

theorem Good.oam_pixel {s : State} (h : Good s) {x y : Nat} (hx : x < 256) (hy : y < 32) : ∃ c, OamPixelIs s x y c := by
  obtain ⟨tall, htall⟩ := h.tall
  obtain ⟨bg, hbg⟩ := h.bgsel
  obtain ⟨idx, hi⟩ := h.oam (4 * (y / 16 * 32 + x / 8) + 1) (by omega)
  obtain ⟨attr, ha⟩ := h.oam (4 * (y / 16 * 32 + x / 8) + 2) (by omega)
  have := idx.isLt; have := bg.isLt
  have finish : ∀ t, t < 512 → (∀ fh fv g, fv = attr.getLsbD 7 → fh = attr.getLsbD 6 → g = 4 + attr.toNat % 4 →
      StripTile s x y t fh fv g) → ∃ c, OamPixelIs s x y c := by
    intro t ht hs
    obtain ⟨p, hp⟩ := h.tile (t := t) (r := if attr.getLsbD 7 then 7 - y % 8 else y % 8)
      (c := if attr.getLsbD 6 then 7 - x % 8 else x % 8) ht (by split <;> omega)
    obtain ⟨c, hc⟩ := h.colour (groupAddr_lt (g := 4 + attr.toNat % 4) (by omega) p)
    exact ⟨c, .inl ⟨_, ⟨t, _, _, _, p, hs _ _ _ rfl rfl rfl, hp, rfl⟩, hc⟩⟩
  cases tall with
  | true => exact finish _ (by omega) fun fh fv g h1 h2 h3 => ⟨idx, attr, hi, ha, h1, h2, h3, .inl ⟨htall, rfl⟩⟩
  | false =>
    by_cases hlow : y % 16 < 8
    · exact finish _ (by omega) fun fh fv g h1 h2 h3 =>
        ⟨idx, attr, hi, ha, h1, h2, h3, .inr ⟨htall, hlow, bg, hbg, rfl⟩⟩
    · exact ⟨_, .inr ⟨htall, by omega, rfl⟩⟩

/-- On a good snapshot `NAMETABLE` completes without a fault. -/
theorem Good.nametable_completes {s : State} (h : Good s) {b : Nat} (hb : b < 4) (hs : s.surfOk.get .nametable = true)
    (hf : s.status.fault = false) : ∃ t, exec (.nametable b) s = .next t ∧ t.status.fault = false := by
  have hpix : ∀ x < 256, ∀ y < 240, ∃ c, nametablePix s b x y = .ok c := by
    intro x hx y hy
    have hbase := s.params.ntAttrBase.isLt
    obtain ⟨idx, hi⟩ := h.nt (ntKey b (gridOffset (y / 8) (x / 8))) (by simp only [ntKey, gridOffset]; omega)
    obtain ⟨attr, ha⟩ := h.nt (ntKey b (attrOffset s.params.ntAttrBase.val (y / 8) (x / 8)))
      (by simp only [ntKey, attrOffset]; omega)
    obtain ⟨bg, hbg⟩ := h.bgsel
    have ht : tileNumber bg.toNat idx.toNat < 512 := by have := idx.isLt; have := bg.isLt; simp only [tileNumber]; omega
    obtain ⟨p0, h0⟩ := h.chr (plane0Addr (tileNumber bg.toNat idx.toNat) (y % 8)) (by simp only [plane0Addr]; omega)
    obtain ⟨p1, h1⟩ := h.chr (plane1Addr (tileNumber bg.toNat idx.toNat) (y % 8)) (by simp only [plane1Addr]; omega)
    have hg : attrGroup attr (y / 8) (x / 8) < 8 := by
      have : attrGroup attr (y / 8) (x / 8) ≤ 3 := by
        rw [attrGroup, BitVec.toNat_and]; exact Nat.and_le_right
      omega
    have hp := groupAddr_lt hg (planePixel p0 p1 (x % 8))
    obtain ⟨k, hk, hk64⟩ := h.pal _ hp
    obtain ⟨e, he⟩ := h.ct _ hk64
    have hidx : s.readNt b (gridOffset (y / 8) (x / 8)) = .ok idx :=
      checkedRead_eq_ok.mpr ⟨by simp only [ntKey, gridOffset, Space.size]; omega, hi⟩
    have hattr : s.readNt b (attrOffset s.params.ntAttrBase.val (y / 8) (x / 8)) = .ok attr :=
      checkedRead_eq_ok.mpr ⟨by simp only [ntKey, attrOffset, Space.size]; omega, ha⟩
    have hbgsel : s.readBgsel = .ok bg := by rw [State.readBgsel, hbg]
    have hp0 : s.readChr (plane0Addr (tileNumber bg.toNat idx.toNat) (y % 8)) = .ok p0 :=
      checkedRead_eq_ok.mpr ⟨by simp only [plane0Addr, Space.size]; omega, h0⟩
    have hp1 : s.readChr (plane1Addr (tileNumber bg.toNat idx.toNat) (y % 8)) = .ok p1 :=
      checkedRead_eq_ok.mpr ⟨by simp only [plane1Addr, Space.size]; omega, h1⟩
    have hpal : s.readPal (palAddr (attrGroup attr (y / 8) (x / 8)) (planePixel p0 p1 (x % 8)).toNat) = .ok k :=
      checkedRead_eq_ok.mpr ⟨hp, hk⟩
    refine ⟨entryRgb e, ?_⟩
    rw [nametablePix, cellTile, hidx, ok_bind, hbgsel, ok_bind, pure_eq_ok, ok_bind, cellGroup, hattr, ok_bind,
      pure_eq_ok, ok_bind, tilePix, hp0, ok_bind, hp1, ok_bind, pure_eq_ok, ok_bind, resolve, paletteColour, hpal, ok_bind,
      State.readCt, checkedRead_of_lt hk64 he]
    rfl
  refine ⟨complete (s.setSurface .nametable (frameOf 256 240 (nametablePix s b))), ?_, ?_⟩
  · rw [exec, execNametable, ifSurfaceReady_ready hs]
    exact renderView_of_pixels (v := .nametable) hpix
  · simpa using hf

theorem exists_next {o : Host.Outcome State Fault Refusal} (h : (nextOf o).isSome = true) : ∃ t, o = .next t := by
  cases o with
  | next t => exact ⟨t, rfl⟩
  | fault r => cases h
  | refused r => cases h

/-- A block in flight with a dirty past: what a reset must clear. -/
def dirty : State :=
  { handA with ix := [(0, 3)], rgb := 0x123456, status := ⟨true, false, false, false, 0, 0⟩, latched := some 0x10000001 }

/-- A block on which a fault stands. -/
def faulted : State := { handA with status := ⟨false, true, true, false, 4, 0⟩, finfo := ⟨0, 7, 0⟩ }

theorem test_witness_reset : (dirty.setInputs [.rst]).inputs = .rst :: [] := rfl
theorem test_witness_idle : (faulted.setInputs []).inputs = [] ∧ (faulted.setInputs []).latched = none := ⟨rfl, rfl⟩
theorem test_witness_wellFormed :
    (Instr.tile 511 true true 255 255).wellFormed = true ∧ (Instr.resolve 7 3).wellFormed = true ∧
    (Instr.pattern 1).wellFormed = true ∧ (Instr.nametable 3).wellFormed = true := by decide
theorem test_witness_decode_ok : decode 0x1747C7FF = .ok (.tile 511 true true 248 232) := by decide

/-- `StepRunsTheDecodedCommand`. -/
theorem test_witness_step :
    (handA.setInputs [.cmd 0x10000001]).inputs = .cmd 0x10000001 :: [] ∧ handA.status.busy = false ∧
    handA.status.fault = false ∧ decode 0x10000001 = .ok (.tile 1 false false 0 0) := ⟨rfl, rfl, rfl, by decide⟩
/-- `TimedCommandIsInFlight`, for a view and for `TILE`. -/
theorem test_witness_timed :
    (handA.setInputs [.cmdBegin 0x30000001]).inputs = .cmdBegin 0x30000001 :: [] ∧ handA.status.busy = false ∧
    handA.status.fault = false ∧ decode 0x30000001 = .ok (.pattern 1) ∧
    (∀ v, viewOf (.pattern 1) = some v → handA.surfOk.get v = true) ∧
    decode 0x10000001 = .ok (.tile 1 false false 0 0) ∧
    (∀ v, viewOf (.tile 1 false false 0 0) = some v → handA.surfOk.get v = true) := by
  refine ⟨rfl, rfl, rfl, by decide, ?_, by decide, ?_⟩
  · rintro v ⟨⟩; rfl
  · rintro v ⟨⟩
/-- `TimedCommandEndsAsTheAtomicOne` and `FaultStandsUntilReset`. -/
theorem test_witness_idle_block :
    handA.status.busy = false ∧ handA.latched = none ∧ faulted.status.fault = true ∧ faulted.status.busy = false ∧
    faulted.latched = none ∧ IsCmdWrite (.cmd 0x70000000) 0x70000000 ∧
    (faulted.setInputs [.cmd 0x70000000]).inputs = .cmd 0x70000000 :: [] ∧
    (faulted.setInputs [.finish]).inputs.head? ≠ some .rst ∧ (nextOf (step (faulted.setInputs [.finish]))).isSome = true := by
  refine ⟨rfl, rfl, rfl, rfl, rfl, .inl rfl, rfl, by decide, by decide⟩
/-- `ReadinessIsSampledAtTheStart`, both ways to end, and `WriteWhileBusyTakesOverrun`: a `TILE`, a `RESOLVE` and a view
in flight. -/
theorem test_witness_in_flight :
    dirty.inputs = [] ∧ (dirty.setInputs [.finish]).inputs = .finish :: [] ∧ dirty.latched = some 0x10000001 ∧ dirty.status.busy = true ∧ dirty.status.fault = false ∧
    decode 0x10000001 = .ok (.tile 1 false false 0 0) ∧ decode 0x20000000 = .ok (.resolve 0 0) ∧
    decode 0x60000000 = .ok .colors ∧ (∀ v, viewOf (.resolve 0 0) ≠ some v) ∧ (∀ g p, Instr.colors ≠ .resolve g p) ∧
    viewOf .colors ≠ some .palette ∧ (∀ c < 8, ∀ r < 8, 8 ≠ 256 * (0 + r) + (0 + c)) := by
  refine ⟨rfl, rfl, rfl, rfl, rfl, by decide, by decide, by decide, ?_, ?_, by decide, by decide⟩
  · intro v h; cases h
  · intro g p h; cases h
/-- `IllegalWordTakesIllegalCmd`: opcode 0 and a reserved bit. -/
theorem test_witness_illegal :
    IsCmdWrite (.cmdBegin 0) 0 ∧ (handA.setInputs [.cmdBegin 0]).inputs = .cmdBegin 0 :: [] ∧
    handA.status.busy = false ∧ handA.status.fault = false ∧ (∀ r ∈ opcodeTable, r.accepts 0 = false) ∧
    (∀ r ∈ opcodeTable, r.accepts 0x18000000 = false) := ⟨.inr rfl, rfl, rfl, rfl, by decide, by decide⟩
/-- `TileWritesItsSquare`, at the last tile and the last legal origin. -/
theorem test_witness_tile :
    (Instr.tile 511 true true 248 232).wellFormed = true ∧ 248 ≤ 248 ∧ 232 ≤ 232 ∧
    ∀ k < 16, ∃ b, (s0 pal0 false 0).snap.chr.read (16 * 511 + k) = some b :=
  ⟨by decide, by decide, by decide, fun k hk => (good_s0 false 0).chr _ (by omega)⟩
/-- `TileOutsideIxFaults`, for each clause at its boundary. -/
theorem test_witness_tile_outside :
    (Instr.tile 0 false false 249 0).wellFormed = true ∧ (256 ≤ 249 + 7 ∨ 240 ≤ 0 + 7) ∧ 248 < 249 ∧
    (Instr.tile 0 false false 248 233).wellFormed = true ∧ (256 ≤ 248 + 7 ∨ 240 ≤ 233 + 7) ∧ 248 ≤ 248 ∧
    handA.status.fault = false := by decide
/-- `PixelBitsComeFromThePlanes`, both sides. -/
theorem test_witness_pixel : tilePix handA 1 7 7 = .ok 3 ∧ TilePixelIs handA 1 7 7 3 :=
  ⟨by decide, 0x01, 0x0F, by decide, by decide, by decide, by decide⟩
/-- `ResolveLeavesTheColour` (R94's example, `RESOLVE 7, 3` and `RESOLVE 5, 0`) and `ResolveOfABadByteFaults`. -/
theorem test_witness_resolve :
    (Instr.resolve 7 3).wellFormed = true ∧ ColourAt (s0 pal0 false 0) (groupAddr 7 3) 0xFC033F ∧
    (Instr.resolve 5 0).wellFormed = true ∧ ColourAt (s0 pal0 false 0) (groupAddr 5 0) 0x04FB01 ∧
    (Instr.resolve 2 2).wellFormed = true ∧ (s0 (pal64 10) false 0).status.fault = false ∧
    BadByteAt (s0 (pal64 10) false 0) (groupAddr 2 2) 64 := by
  refine ⟨by decide, ⟨63, 0x00FC033F, ?_⟩, by decide, ⟨1, 0x0004FB01, ?_⟩, by decide, rfl, ?_, by decide⟩ <;>
    decide +kernel
/-- `PatternRendersItsTable`. -/
theorem test_witness_pattern :
    (Instr.pattern 1).wellFormed = true ∧ (s0 pal0 false 0).surfOk.get .pattern = true ∧
    ∀ x < 128, ∀ y < 128, ∃ c, PatternPixelIs (s0 pal0 false 0) 1 x y c := by
  refine ⟨by decide, rfl, fun x hx y hy => ?_⟩
  obtain ⟨p, hp⟩ := (good_s0 false 0).tile (t := 256 * 1 + (y / 8 * 16 + x / 8)) (c := x % 8) (by omega)
    (Nat.mod_lt y (by omega))
  have := p.isLt
  exact ⟨_, p, _, hp, Vector.getElem?_eq_getElem (by omega), rfl⟩
/-- `NametableRendersItsBank`. -/
theorem test_witness_nametable :
    (Instr.nametable 3).wellFormed = true ∧ (s0 pal0 false 1).surfOk.get .nametable = true ∧
    ∀ x < 256, ∀ y < 240, ∃ c, NametablePixelIs (s0 pal0 false 1) 3 x y c :=
  ⟨by decide, rfl, fun _ hx _ hy => (good_s0 false 1).nametable (by omega) hx hy⟩
/-- `OamviewRendersTheStrip`, for 8 by 16 and for 8 by 8 sprites. -/
theorem test_witness_oamview :
    (s0 pal0 true 0).surfOk.get .oam = true ∧ (∀ x < 256, ∀ y < 32, ∃ c, OamPixelIs (s0 pal0 true 0) x y c) ∧
    (s0 pal0 false 1).surfOk.get .oam = true ∧ ∀ x < 256, ∀ y < 32, ∃ c, OamPixelIs (s0 pal0 false 1) x y c :=
  ⟨rfl, fun _ hx _ hy => (good_s0 true 0).oam_pixel hx hy, rfl, fun _ hx _ hy => (good_s0 false 1).oam_pixel hx hy⟩
/-- `ColorsRendersTheTable` and `PaletteRendersPaletteRam`. -/
theorem test_witness_colors_palette :
    (s0 pal0 false 0).surfOk.get .colors = true ∧ (∀ x < 16, ∀ y < 4, ∃ c, ColorsPixelIs (s0 pal0 false 0) x y c) ∧
    (s0 pal0 false 0).surfOk.get .palette = true ∧ ∀ x < 16, ∀ y < 2, ∃ c, PalettePixelIs (s0 pal0 false 0) x y c := by
  refine ⟨rfl, fun x hx y hy => ?_, rfl, fun x hx y hy => (good_s0 false 0).colour ?_⟩
  · obtain ⟨e, he⟩ := (good_s0 false 0).ct (16 * y + x) (by omega)
    exact ⟨_, e, he, rfl⟩
  · unfold paletteAddr; split <;> omega
/-- `NametableFaultsAtItsFirstBadByte`: section 2.8, the fault of `NAMETABLE 0` at `px(2, 0)`. -/
theorem test_witness_nametable_fault :
    (Instr.nametable 0).wellFormed = true ∧ (s0 (pal64 10) false 0).surfOk.get .nametable = true ∧
    (s0 (pal64 10) false 0).status.fault = false ∧ NametableUses (s0 (pal64 10) false 0) 0 2 0 10 ∧
    BadByteAt (s0 (pal64 10) false 0) 10 64 ∧
    ∀ x' < 256, ∀ y' < 240, y' * 256 + x' < 0 * 256 + 2 → ∃ c, NametablePixelIs (s0 (pal64 10) false 0) 0 x' y' c := by
  have tile : ∀ (c : Nat) (p : PixVal), p.getLsbD 0 = (0x05 : Byte).getLsbD (7 - c) →
      p.getLsbD 1 = (0x2D : Byte).getLsbD (7 - c) → TilePixelIs (s0 (pal64 10) false 0) 0 0 c p :=
    fun c p h0 h1 => ⟨0x05, 0x2D, s0_chr _ _ _ (by decide), s0_chr _ _ _ (by decide), h0, h1⟩
  have cell : ∀ x < 8, NametableCell (s0 (pal64 10) false 0) 0 x 0 0 2 := by
    intro x hx
    have : x / 8 = 0 := by omega
    refine ⟨0, 0xDE, 0, ?_⟩
    rw [this]
    exact ⟨s0_nt _ _ _ (by decide), rfl, s0_nt _ _ _ (k := 960) (by decide), rfl, rfl⟩
  have colour : ColourAt (s0 (pal64 10) false 0) 0 0x04FB01 := ⟨1, 0x0004FB01, by decide +kernel⟩
  refine ⟨by decide, rfl, rfl, ⟨0, 2, 2, cell 2 (by omega), tile 2 2 (by decide) (by decide), by decide⟩,
    ⟨by decide +kernel, by decide⟩, fun x' _ y' _ h => ?_⟩
  have : y' = 0 ∧ (x' = 0 ∨ x' = 1) := by omega
  obtain ⟨rfl, rfl | rfl⟩ := this
  · exact ⟨_, _, ⟨0, 2, 0, cell 0 (by omega), tile 0 0 (by decide) (by decide), rfl⟩, colour⟩
  · exact ⟨_, _, ⟨0, 2, 0, cell 1 (by omega), tile 1 0 (by decide) (by decide), rfl⟩, colour⟩
/-- `OamviewFaultsAtItsFirstBadByte`: line 0 of `TALL = 0`, `BGSEL = 0` starts with the values 3, 3, 0, 1 in group 5, so
`px(3, 0)` is the first to use `PAL[21]`. -/
theorem test_witness_oamview_fault :
    (s0 (pal64 21) false 0).surfOk.get .oam = true ∧ (s0 (pal64 21) false 0).status.fault = false ∧
    OamUses (s0 (pal64 21) false 0) 3 0 21 ∧ BadByteAt (s0 (pal64 21) false 0) 21 64 ∧
    ∀ x' < 256, ∀ y' < 32, y' * 256 + x' < 0 * 256 + 3 → ∃ c, OamPixelIs (s0 (pal64 21) false 0) x' y' c := by
  have sprite : ∀ x < 8, StripTile (s0 (pal64 21) false 0) x 0 292 true false 5 := by
    intro x hx
    have : x / 8 = 0 := by omega
    refine ⟨0x24, 0x41, ?_⟩
    rw [this]
    exact ⟨by decide +kernel, by decide +kernel, by decide, by decide, by decide, .inr ⟨rfl, by decide, 0, rfl, by decide⟩⟩
  have tile : ∀ (c : Nat) (p : PixVal), p.getLsbD 0 = (0x0B : Byte).getLsbD (7 - c) →
      p.getLsbD 1 = (0x33 : Byte).getLsbD (7 - c) → TilePixelIs (s0 (pal64 21) false 0) 292 0 c p :=
    fun c p h0 h1 => ⟨0x0B, 0x33, s0_chr _ _ _ (by decide), s0_chr _ _ _ (by decide), h0, h1⟩
  have colour3 : ColourAt (s0 (pal64 21) false 0) 23 0xBC432F := ⟨47, 0x00BC432F, by decide +kernel⟩
  have colour0 : ColourAt (s0 (pal64 21) false 0) 0 0x04FB01 := ⟨1, 0x0004FB01, by decide +kernel⟩
  refine ⟨rfl, rfl, ⟨292, true, false, 5, 1, sprite 3 (by omega), tile 4 1 (by decide) (by decide), by decide⟩,
    ⟨by decide +kernel, by decide⟩, fun x' _ y' _ h => ?_⟩
  have : y' = 0 ∧ (x' = 0 ∨ x' = 1 ∨ x' = 2) := by omega
  obtain ⟨rfl, rfl | rfl | rfl⟩ := this
  · exact ⟨_, .inl ⟨_, ⟨292, _, _, _, 3, sprite 0 (by omega), tile 7 3 (by decide) (by decide), rfl⟩, colour3⟩⟩
  · exact ⟨_, .inl ⟨_, ⟨292, _, _, _, 3, sprite 1 (by omega), tile 6 3 (by decide) (by decide), rfl⟩, colour3⟩⟩
  · exact ⟨_, .inl ⟨_, ⟨292, _, _, _, 0, sprite 2 (by omega), tile 5 0 (by decide) (by decide), rfl⟩, colour0⟩⟩
/-- `PaletteFaultsAtItsFirstBadByte`: section 2.7, the fault of `PALETTE` at entry 10. -/
theorem test_witness_palette_fault :
    (s0 (pal64 10) false 0).surfOk.get .palette = true ∧ (s0 (pal64 10) false 0).status.fault = false ∧
    10 = paletteAddr (16 * 0 + 10) ∧ BadByteAt (s0 (pal64 10) false 0) 10 64 ∧
    ∀ x' < 16, ∀ y' < 2, y' * 16 + x' < 0 * 16 + 10 → ∃ c, PalettePixelIs (s0 (pal64 10) false 0) x' y' c := by
  refine ⟨rfl, rfl, by decide, ⟨by decide +kernel, by decide⟩, fun x' _ y' _ h => ?_⟩
  have ha : paletteAddr (16 * y' + x') < 10 := by unfold paletteAddr; split <;> omega
  obtain ⟨k, hk, hlt⟩ := (good_s0 false 0).pal (paletteAddr (16 * y' + x')) (by omega)
  obtain ⟨e, he⟩ := (good_s0 false 0).ct k.toNat hlt
  refine ⟨_, k, e, ?_, hlt, he, rfl⟩
  rw [s0, State.setSnap_snap, snap0, Memory.read_tabulate] at hk ⊢
  rw [if_pos (by omega)] at hk ⊢
  rwa [pal64, if_neg (by omega)]
/-- `AttributeBitsColourOneQuadrant`: E6's change of `NT[0][960]`, at the first pixel past each edge of the square and at
a pixel of value 0 inside it. -/
theorem test_witness_attribute :
    (Instr.nametable 0).wellFormed = true ∧ (s0 pal0 false 0).params.ntAttrBase.val = 960 ∧
    (s0 pal0 false 0).snap.nt.read (2048 * 0 + 960) = some 0xDE ∧ (0xDD : Byte) >>> 2 = 0xDE >>> 2 ∧
    (∃ t t', exec (.nametable 0) (s0 pal0 false 0) = .next t ∧
      exec (.nametable 0) (pokeNt 0 960 0xDD (s0 pal0 false 0)) = .next t' ∧ t.status.fault = false ∧
      t'.status.fault = false) ∧
    (16 ≤ 16 ∨ 16 ≤ 0) ∧ (16 ≤ 0 ∨ 16 ≤ 16) ∧
    NametableCell (s0 pal0 false 0) 0 0 0 0 2 ∧ TilePixelIs (s0 pal0 false 0) 0 (0 % 8) (0 % 8) 0 := by
  refine ⟨by decide, rfl, s0_nt _ _ _ (by decide), by decide, ?_, by decide, by decide,
    ⟨0, 0xDE, 0, s0_nt _ _ _ (by decide), rfl, s0_nt _ _ _ (k := 960) (by decide), rfl, rfl⟩,
    0x05, 0x2D, s0_chr _ _ _ (by decide), s0_chr _ _ _ (by decide), by decide, by decide⟩
  obtain ⟨t, ht, hf⟩ := (good_s0 false 0).nametable_completes (b := 0) (by omega) rfl rfl
  obtain ⟨t', ht', hf'⟩ := (good_pokeNt (good_s0 false 0) 0 960 0xDD).nametable_completes (b := 0) (by omega) rfl rfl
  exact ⟨t, t', ht, ht', hf, hf'⟩
/-- `UnreadySurfaceTakesSurfaceError`, for both forms of the write and two views. -/
theorem test_witness_unready :
    IsCmdWrite (.cmd 0x30000001) 0x30000001 ∧ (handA.setInputs [.cmd 0x30000001]).inputs = .cmd 0x30000001 :: [] ∧
    handA.status.busy = false ∧ handA.status.fault = false ∧ decode 0x30000001 = .ok (.pattern 1) ∧
    viewOf (.pattern 1) = some .pattern ∧ (handA.setSurfOk ⟨false, true, true, true, true⟩).surfOk.get .pattern = false ∧
    IsCmdWrite (.cmdBegin 0x70000000) 0x70000000 ∧
    (handA.setInputs [.cmdBegin 0x70000000]).inputs = .cmdBegin 0x70000000 :: [] ∧ decode 0x70000000 = .ok .palette ∧
    viewOf .palette = some .palette ∧ (handA.setSurfOk ⟨true, true, true, true, false⟩).surfOk.get .palette = false :=
  ⟨.inl rfl, rfl, rfl, rfl, by decide, rfl, rfl, .inr rfl, rfl, by decide, rfl, rfl⟩
/-- `EachOutputHasOneWriter`, `ExecutedCommandsEnd` and `CommandsAreFunctionsOfTheSnapshot`: `RESOLVE`, `TILE` and a view
that answer next states without a fault, on two states that share the snapshot. -/
theorem test_witness_exec_next :
    (∃ t, exec (.resolve 5 2) (s0 pal0 false 0) = .next t ∧ t.status.fault = false) ∧
    (∃ t, exec (.tile 1 false false 0 0) handA = .next t ∧ t.status.fault = false) ∧
    (∃ t, exec (.tile 1 false false 0 0) dirty = .next t ∧ t.status.fault = false) ∧
    (∃ t, exec (.nametable 0) (s0 pal0 false 0) = .next t ∧ t.status.fault = false) ∧
    (∃ t, exec (.nametable 0) ((s0 pal0 false 0).setRgb 5) = .next t ∧ t.status.fault = false) ∧
    (s0 pal0 false 0).status.fault = false ∧ viewOf (.nametable 0) = some .nametable ∧
    (s0 pal0 false 0).surfOk.get .nametable = true := by
  have key : ∀ o : Host.Outcome State Fault Refusal, (nextOf o).map (·.status.fault) = some false →
      ∃ t, o = .next t ∧ t.status.fault = false := by
    intro o h
    cases o with
    | next t => exact ⟨t, rfl, by simpa [nextOf] using h⟩
    | fault r => cases h
    | refused r => cases h
  have good' : Good ((s0 pal0 false 0).setRgb 5) := by
    obtain ⟨a, b, c, d, e, f, g⟩ := good_s0 false 0
    exact ⟨a, b, c, d, e, f, g⟩
  exact ⟨key _ (by decide +kernel), key _ (by decide +kernel), key _ (by decide +kernel),
    (good_s0 false 0).nametable_completes (by omega) rfl rfl, good'.nametable_completes (by omega) rfl rfl, rfl, rfl, rfl⟩
/-- `CompleteSnapshotRunsEveryCommand`. -/
theorem test_witness_complete :
    (∀ k < 64, ∃ v, (s0 pal0 true 1).snap.ct.read k = some v) ∧ (∀ a < 32, ∃ v, (s0 pal0 true 1).snap.pal.read a = some v) ∧
    (∀ a < 8192, ∃ v, (s0 pal0 true 1).snap.chr.read a = some v) ∧
    (∀ a < 8192, ∃ v, (s0 pal0 true 1).snap.nt.read a = some v) ∧
    (∀ a < 256, ∃ v, (s0 pal0 true 1).snap.oam.read a = some v) ∧ (∃ v, (s0 pal0 true 1).snap.tall = some v) ∧
    ∃ v, (s0 pal0 true 1).snap.bgsel = some v :=
  ⟨(good_s0 true 1).ct, fun a h => ((good_s0 true 1).pal a h).imp fun _ h => h.1, (good_s0 true 1).chr, (good_s0 true 1).nt,
    (good_s0 true 1).oam, (good_s0 true 1).tall, (good_s0 true 1).bgsel⟩
/-- `LaunchedCommandRunsFirst`, on a state that is not the one after reset. -/
theorem test_witness_launch :
    (Instr.nametable 3).wellFormed = true ∧ (handA.setStatus ⟨false, true, false, true, 2, 3⟩).status.busy = false ∧
    (handA.setStatus ⟨false, true, false, true, 2, 3⟩).status.fault = false := by decide
/-- `DeadBytesChangeNothing`, each clause at both ends of its range. -/
theorem test_witness_dead_bytes :
    Instr.palette.wellFormed = true ∧ (1 ≤ 1 ∧ 1 < 8) ∧ (1 ≤ 7 ∧ 7 < 8) ∧ State.reset.params.ntAttrBase.val = 960 ∧
    (3 < 4 ∧ 1024 ≤ 1024 ∧ 1024 < 2048) ∧ (0 < 4 ∧ 1024 ≤ 2047 ∧ 2047 < 2048) ∧ 0 < 64 ∧ 63 < 64 := by decide
/-- `DeadBitsChangeNothing`, each clause at both ends of its range. -/
theorem test_witness_dead_bits :
    (s0 pal0 false 0).snap.ct.read 63 = some 0x00FC033F ∧
    (0xAAFC033F : Word).extractLsb' 0 24 = (0x00FC033F : Word).extractLsb' 0 24 ∧
    (s0 pal0 false 0).snap.oam.read (4 * 0 + 2) = some 0x41 ∧ (0x7D : Byte) &&& 0xC3 = 0x41 &&& 0xC3 ∧
    (s0 pal0 false 0).snap.oam.read (4 * 63 + 2) = some 0x0C ∧ (0x30 : Byte) &&& 0xC3 = 0x0C &&& 0xC3 ∧
    (s0 pal0 false 0).params.ntAttrBase.val = 960 ∧ 0 < 4 ∧ 0 < 8 ∧ 3 < 4 ∧ 7 < 8 ∧
    (s0 pal0 false 0).snap.nt.read (2048 * 0 + (1016 + 0)) = some 0xF7 ∧ (0x07 : Byte) &&& 0x0F = 0xF7 &&& 0x0F ∧
    (s0 pal0 false 0).snap.nt.read (2048 * 3 + (1016 + 7)) = some 0x4D ∧ (0xFD : Byte) &&& 0x0F = 0x4D &&& 0x0F := by
  refine ⟨by decide +kernel, by decide, by decide +kernel, by decide, by decide +kernel, by decide, rfl, by decide,
    by decide, by decide, by decide, s0_nt _ _ _ (by decide), by decide, s0_nt _ _ _ (by decide), by decide⟩
/-- `RegistersCanBeReadInFlight` and `OutputReadsInFlightAreRefused`. -/
theorem test_witness_reads_in_flight : dirty.status.busy = true := rfl
/-- `HostReadsTheRegisters`, `OtherRegisterAccessesAreRefused`, `ProviderWritesOneLocation`. -/
theorem test_witness_registers :
    faulted.status.busy = false ∧
    (4, faulted.status.word) ∈ [(0, 0#32), (4, faulted.status.word), (8, faulted.rgb), (12, faulted.finfo.word)] ∧
    (12, faulted.finfo.word) ∈ [(0, 0#32), (4, faulted.status.word), (8, faulted.rgb), (12, faulted.finfo.word)] ∧
    (2 ≠ 4 ∨ 0 % 4 ≠ 0) ∧ (4 ≠ 4 ∨ 6 % 4 ≠ 0) ∧ 63 < 64 ∧ 31 < 32 ∧ 8191 < 8192 ∧ 3 < 4 ∧ 2047 < 2048 ∧
    255 < 256 := by
  refine ⟨rfl, by simp, by simp, by decide⟩
/-- `OutputReadsReturnOnlyWrittenValues`: a written and an unwritten location of `IX` and of a surface, at the ends. -/
theorem test_witness_output_reads :
    (handA.setIx [(61439, 3)]).status.busy = false ∧ 255 < 256 ∧ 239 < 240 ∧
    (handA.setIx [(61439, 3)]).ix.read (256 * 239 + 255) = some 3 ∧ (handA.setIx [(61439, 3)]).ix.read (256 * 0 + 0) = none ∧
    191 < View.colors.bytes ∧ ((handA.setSurface .colors [(191, 7)]).surface .colors).read 191 = some 7 ∧
    ((handA.setSurface .colors [(191, 7)]).surface .colors).read 0 = none := by decide
/-- `OtherAgentsLeaveTheBlockAlone`: the Sink drives `SURF_OK` while a command is in flight. -/
theorem test_witness_other_agents :
    (dirty.setInputs [.driveSurfOk .oam false]).inputs = .driveSurfOk .oam false :: [] ∧
    (∀ w, ¬IsCmdWrite (.driveSurfOk .oam false) w) ∧ (∀ a n w, Event.driveSurfOk .oam false ≠ .hostWrite a n w) ∧
    Event.driveSurfOk .oam false ≠ .finish ∧ Event.driveSurfOk .oam false ≠ .rst ∧
    ∃ t, step (dirty.setInputs [.driveSurfOk .oam false]) = .next t := by
  refine ⟨rfl, ?_, ?_, by decide, by decide, _, rfl⟩
  · rintro w (h | h) <;> cases h
  · intro a n w h; cases h
/-- `SnapshotHoldsWhileBusy`, `InvariantCodeIsNeverRecorded` and `EveryStepKeepsTheInvariant`: a `TILE` in flight ends. -/
theorem test_witness_steps :
    dirty.status.busy = true ∧ dirty.status.code ≠ 3#4 ∧ dirty.Inv ∧ ∃ t, step (dirty.setInputs [.finish]) = .next t := by
  refine ⟨rfl, by decide, ⟨⟨?_, ?_, ?_, ?_, ?_, ?_, fun v => ?_⟩, ⟨rfl, ?_⟩, ?_, ?_⟩, exists_next (by decide +kernel)⟩
  iterate 6 decide
  · cases v <;> decide
  · rintro w ⟨⟩; exact ⟨.tile 1 false false 0 0, by decide⟩
  · unfold State.reportOk; decide
  · unfold State.rgbOk; decide

end Sys2Proof.Tests
end

section
/-!
PROOFS. The decoder against the opcode table (R62 to R69) and against the decoding rule (R74).
-/

namespace Sys2Proof

/-! ### The fields a format tests -/

theorem extractLsb'_eq_zero_iff (w : Word) (lo n : Nat) : w.extractLsb' lo n = 0#n ↔ field w lo n = 0 := by
  rw [field, ← BitVec.toNat_inj]; simp

/-- A field of one bit is that bit. -/
theorem field_one (w : Word) (i : Nat) : field w i 1 = (w.getLsbD i).toNat := by
  rw [field_eq, BitVec.getLsbD, Nat.toNat_testBit, pow_one]

theorem field_one_eq_zero_iff (w : Word) (i : Nat) : field w i 1 = 0 ↔ w.getLsbD i = false := by
  rw [field_one, Bool.toNat_eq_zero]

theorem field_one_beq_one (w : Word) (i : Nat) : (field w i 1 == 1) = w.getLsbD i := by
  rw [field_one]; cases w.getLsbD i <;> rfl

/-- The opcode and zeros in bits `27:k` are the word's bits from `k` up. -/
theorem opField_and_reserved_iff (w : Word) (op : Nibble) {k : Nat} (hk : k ≤ 28) :
    opField w = op ∧ field w k (28 - k) = 0 ↔ w.toNat / 2 ^ k = op.toNat * 2 ^ (28 - k) := by
  have hpow : 2 ^ 28 = 2 ^ k * 2 ^ (28 - k) := by rw [← pow_add, Nat.add_sub_cancel' hk]
  rw [opField_eq_iff, field_eq, hpow, ← Nat.div_div_eq_div_mul, Nat.div_mod_unique (Nat.two_pow_pos _), zero_add,
    and_iff_left (Nat.two_pow_pos _), mul_comm, eq_comm]

/-- A command without operands has one word (R66). -/
theorem eq_iff_opField_and_reserved {w v : Word} {op : Nibble} (hv : v.toNat = op.toNat * 2 ^ 28) :
    w = v ↔ opField w = op ∧ field w 0 28 = 0 := by
  rw [opField_and_reserved_iff w op (Nat.zero_le 28), ← BitVec.toNat_inj, hv, pow_zero, Nat.div_one, Nat.sub_zero]

/-! ### `decode` as one chain of tests -/

theorem toOption_unlessReserved (r : Nat) (i : Instr) :
    (unlessReserved r i).toOption = if r = 0 then some i else none := by
  unfold unlessReserved; split <;> rfl

/-- One arm of `decode`: when the arms after it do not answer at its opcode, its two tests are one. -/
theorem toOption_arm {op c : Nibble} {r : Nat} {i : Instr} {rest : Except DecodeReject Instr}
    (h : op = c → rest.toOption = none) :
    (if op = c then unlessReserved r i else rest).toOption = if op = c ∧ r = 0 then some i else rest.toOption := by
  by_cases hc : op = c
  · simp [hc, toOption_unlessReserved, h hc]
  · simp [hc]

/-- R74 with the opcode and the reserved bits of a format in one test. -/
theorem toOption_decode (w : Word) : (decode w).toOption =
    if opField w = opTile ∧ field w 27 1 = 0 then
      some (.tile (field w 0 9) (field w 9 1 == 1) (field w 10 1 == 1) (field w 11 8) (field w 19 8))
    else if opField w = opResolve ∧ field w 5 23 = 0 then some (.resolve (field w 2 3) (field w 0 2))
    else if opField w = opPattern ∧ field w 1 27 = 0 then some (.pattern (field w 0 1))
    else if opField w = opNametable ∧ field w 2 26 = 0 then some (.nametable (field w 0 2))
    else if opField w = opOamview ∧ field w 0 28 = 0 then some .oamview
    else if opField w = opColors ∧ field w 0 28 = 0 then some .colors
    else if opField w = opPalette ∧ field w 0 28 = 0 then some .palette
    else none := by
  unfold decode
  iterate 6 rw [toOption_arm]
  · rw [toOption_arm fun _ => rfl]; rfl
  all_goals intro h; rw [h]; rfl

/-! ### The opcode table by its formats -/

/-- Each format of R62 to R66: its opcode, and how many low bits hold operands. -/
def opcodeFormats : List (Nibble × Nat) :=
  [(opTile, 27), (opResolve, 5), (opPattern, 1), (opNametable, 2), (opOamview, 0), (opColors, 0), (opPalette, 0)]

/-- The row of a format: it compares the bits above the operands with the opcode and zeros. -/
def formatRow (f : Nibble × Nat) : TableRow := ⟨BitVec.ofNat 32 (f.1.toNat * 2 ^ 28), BitVec.allOnes 32 <<< f.2⟩

theorem opcodeTable_eq : opcodeTable = opcodeFormats.map formatRow := by decide

theorem opcodeFormats_nodup : (opcodeFormats.map Prod.fst).Nodup := by decide

theorem operandWidth_le : ∀ f ∈ opcodeFormats, f.2 ≤ 28 := by decide

/-- Masking off the low `k` bits, as arithmetic. -/
theorem toNat_and_allOnes_shiftLeft (w : Word) (k : Nat) :
    (w &&& BitVec.allOnes 32 <<< k).toNat = w.toNat / 2 ^ k * 2 ^ k := by
  have hlt : w.toNat / 2 ^ k * 2 ^ k < 2 ^ 32 := (Nat.div_mul_le_self _ _).trans_lt w.isLt
  rw [← BitVec.shiftLeft_ushiftRight, BitVec.toNat_shiftLeft, BitVec.toNat_ushiftRight, Nat.shiftRight_eq_div_pow,
    Nat.shiftLeft_eq, Nat.mod_eq_of_lt hlt]

theorem formatRow_pattern_toNat (f : Nibble × Nat) : (formatRow f).pattern.toNat = f.1.toNat * 2 ^ 28 := by
  have := f.1.isLt
  simp only [formatRow, BitVec.toNat_ofNat]; omega

theorem accepts_formatRow {f : Nibble × Nat} (hf : f.2 ≤ 28) (w : Word) :
    (formatRow f).accepts w = true ↔ opField w = f.1 ∧ field w f.2 (28 - f.2) = 0 := by
  have hpow : 2 ^ 28 = 2 ^ (28 - f.2) * 2 ^ f.2 := by rw [← pow_add, Nat.sub_add_cancel hf]
  rw [opField_and_reserved_iff w f.1 hf, TableRow.accepts, beq_iff_eq, ← BitVec.toNat_inj, formatRow_pattern_toNat,
    formatRow, toNat_and_allOnes_shiftLeft, hpow, ← mul_assoc, Nat.mul_left_inj (Nat.two_pow_pos _).ne']

/-- Two rows that accept one word would share its opcode. -/
theorem length_filter_accepts_le_one (w : Word) : (opcodeTable.filter (·.accepts w)).length ≤ 1 := by
  rw [opcodeTable_eq, List.filter_map, List.length_map]
  let l := opcodeFormats.filter ((·.accepts w) ∘ formatRow)
  have hsub : l.Sublist opcodeFormats := List.filter_sublist
  have hop : ∀ op ∈ l.map Prod.fst, op = opField w := by
    intro op hmem
    obtain ⟨f, hf, rfl⟩ := List.mem_map.1 hmem
    obtain ⟨hfmt, hacc⟩ := List.mem_filter.1 hf
    exact ((accepts_formatRow (operandWidth_le f hfmt) w).1 hacc).1.symm
  have hnodup : (l.map Prod.fst).Nodup := opcodeFormats_nodup.sublist (hsub.map _)
  rwa [List.eq_replicate_of_mem hop, List.nodup_replicate, List.length_map] at hnodup

theorem exists_accepts_iff (w : Word) : (∃ r ∈ opcodeTable, r.accepts w = true) ↔
    ∃ f ∈ opcodeFormats, opField w = f.1 ∧ field w f.2 (28 - f.2) = 0 := by
  simp only [opcodeTable_eq, List.mem_map, exists_exists_and_eq_and]
  exact exists_congr fun f => and_congr_right fun hf => accepts_formatRow (operandWidth_le f hf) w

theorem exists_decode_iff (w : Word) :
    (∃ i, decode w = .ok i) ↔ ∃ f ∈ opcodeFormats, opField w = f.1 ∧ field w f.2 (28 - f.2) = 0 := by
  have hsome : (∃ i, decode w = .ok i) ↔ (decode w).toOption.isSome = true := by
    cases decode w <;> simp [Except.toOption]
  rw [hsome, toOption_decode]
  simp [apply_ite Option.isSome, opcodeFormats]

/-- Settles O6: the rows of the table are the formats `decode` tests, and no two of them share an opcode. -/
theorem everyWordIsOneCommandOrIllegal : Obligations.EveryWordIsOneCommandOrIllegal := fun w =>
  ⟨length_filter_accepts_le_one w, (exists_decode_iff w).trans (exists_accepts_iff w).symm⟩

/-- Settles O7: `decode` is one chain of tests, and each test and operand is the rule's in another spelling. -/
theorem decodeFollowsTheDecodingRule : Obligations.DecodeFollowsTheDecodingRule := by
  intro w
  have hoam : w = 0x50000000#32 ↔ opField w = opOamview ∧ field w 0 28 = 0 := eq_iff_opField_and_reserved rfl
  have hcol : w = 0x60000000#32 ↔ opField w = opColors ∧ field w 0 28 = 0 := eq_iff_opField_and_reserved rfl
  have hpal : w = 0x70000000#32 ↔ opField w = opPalette ∧ field w 0 28 = 0 := eq_iff_opField_and_reserved rfl
  rw [toOption_decode]
  simp only [hoam, hcol, hpal, extractLsb'_eq_zero_iff, ← field_one_eq_zero_iff, field_one_beq_one]
  simp only [field_eq, pow_zero, Nat.div_one]
  rfl

end Sys2Proof
end

section
/-!
PROOFS. The Tile Decoder: the pixel value (R80), the flips (R82) and the bounds check of `TILE` (R85).
-/

namespace Sys2Proof

open Machine Claims

/-! ### The pixel value -/

theorem planePixel_getLsbD_zero (p0 p1 : Byte) (c : Nat) : (planePixel p0 p1 c).getLsbD 0 = p0.getLsbD (7 - c) := by
  simp [planePixel]

theorem planePixel_getLsbD_one (p0 p1 : Byte) (c : Nat) : (planePixel p0 p1 c).getLsbD 1 = p1.getLsbD (7 - c) := by
  simp [planePixel]

/-- A pixel value is its two bits. -/
theorem pixVal_eq_iff (p q : PixVal) : p = q ↔ p.getLsbD 0 = q.getLsbD 0 ∧ p.getLsbD 1 = q.getLsbD 1 := by
  refine ⟨fun h => h ▸ ⟨rfl, rfl⟩, fun ⟨h0, h1⟩ => BitVec.eq_of_getLsbD_eq fun i hi => ?_⟩
  obtain rfl | rfl : i = 0 ∨ i = 1 := by omega
  · exact h0
  · exact h1

theorem planePixel_eq_iff (p0 p1 : Byte) (c : Nat) (p : PixVal) :
    planePixel p0 p1 c = p ↔ p.getLsbD 0 = p0.getLsbD (7 - c) ∧ p.getLsbD 1 = p1.getLsbD (7 - c) := by
  rw [eq_comm, pixVal_eq_iff, planePixel_getLsbD_zero, planePixel_getLsbD_one]

theorem readChr_eq_ok_iff {s : State} {a : Nat} {b : Byte} (ha : a < 8192) :
    s.readChr a = .ok b ↔ s.snap.chr.read a = some b :=
  checkedRead_eq_ok.trans (and_iff_right ha)

theorem tilePix_eq_ok_iff {s : State} {t r c : Nat} {p : PixVal} :
    tilePix s t r c = .ok p ↔ ∃ p0 p1, s.readChr (plane0Addr t r) = .ok p0 ∧ s.readChr (plane1Addr t r) = .ok p1 ∧
      planePixel p0 p1 c = p := by
  simp only [tilePix, bind_eq_ok, pure_eq_ok, Except.ok.injEq, exists_and_left]

/-- Settles O19: both plane bytes of a row of a tile below 512 are inside `CHR`, and the formula's bits are theirs. -/
theorem pixelBitsComeFromThePlanes : Obligations.PixelBitsComeFromThePlanes := by
  intro s n r c p hn hr _
  have h0 : plane0Addr n r < 8192 := by unfold plane0Addr; omega
  have h1 : plane1Addr n r < 8192 := by unfold plane1Addr; omega
  exact tilePix_eq_ok_iff.trans (exists₂_congr fun p0 p1 =>
    and_congr (readChr_eq_ok_iff h0) (and_congr (readChr_eq_ok_iff h1) (planePixel_eq_iff p0 p1 c p)))

/-! ### The flips -/

/-- Reversing a row or column, or not, stays inside the tile. -/
theorem reverseIf_lt (b : Bool) {n : Nat} (hn : n < 8) : (if b then 7 - n else n) < 8 := by
  split <;> omega

/-- Reversing twice, or not at all, changes nothing. -/
theorem reverseIf_reverseIf (b : Bool) {n : Nat} (hn : n < 8) :
    (if b then 7 - (if b then 7 - n else n) else (if b then 7 - n else n)) = n := by
  cases b with
  | false => rfl
  | true => exact Nat.sub_sub_self (Nat.le_of_lt_succ hn)

/-- Settles O18: each coordinate is reversed, or not, on its own. -/
theorem orientFlipsRowsAndColumns : Obligations.OrientFlipsRowsAndColumns := fun h v _ hr _ hc =>
  ⟨rfl, reverseIf_lt v hr, reverseIf_lt h hc, Prod.ext (reverseIf_reverseIf v hr) (reverseIf_reverseIf h hc)⟩

/-! ### Fault entry in the words of the statements (R156, R166) -/

theorem endsWithFault_raiseFault (op : Nibble) (f : FaultInfo) {s : State} (hs : s.status.fault = false) :
    EndsWithFault (raiseFault op f s) f.cause.code op f.space.number f.index f.aux :=
  ⟨raiseFault_status hs, raiseFault_finfo hs, raiseFault_latched hs⟩

theorem keepsOutputs_raiseFault (op : Nibble) (f : FaultInfo) (s : State) : KeepsOutputs s (raiseFault op f s) :=
  ⟨raiseFault_ix op f s, raiseFault_rgb op f s, raiseFault_surface op f s⟩

theorem keepsOutside_raiseFault (op : Nibble) (f : FaultInfo) (s : State) : KeepsOutside s (raiseFault op f s) :=
  ⟨raiseFault_snap op f s, raiseFault_surfOk op f s, raiseFault_params op f s, raiseFault_inputs op f s,
    raiseFault_readData op f s⟩

/-- Fault entry does not look at the snapshot. -/
theorem raiseFault_setSnap (op : Nibble) (f : FaultInfo) (s : State) (m : Snapshot) :
    raiseFault op f (s.setSnap m) = (raiseFault op f s).setSnap m := by
  cases hs : s.status.fault with
  | true => rw [raiseFault_of_fault hs, raiseFault_of_fault (s := s.setSnap m) hs]
  | false => rw [raiseFault_of_healthy hs, raiseFault_of_healthy (s := s.setSnap m) hs]; rfl

/-! ### The bounds check of `TILE` -/

theorem tileFits_eq_false_iff (x0 y0 : Nat) : tileFits x0 y0 = false ↔ 256 ≤ x0 + 7 ∨ 240 ≤ y0 + 7 := by
  rw [tileFits, Bool.and_eq_false_iff, decide_eq_false_iff_not, decide_eq_false_iff_not]
  omega

/-- A square that leaves `IX` is found before the tile is looked at. -/
theorem exec_tile_outside {x0 y0 : Nat} (hout : tileFits x0 y0 = false) (t : Nat) (h v : Bool) (s : State) :
    exec (.tile t h v x0 y0) s = .next (raiseFault opTile (tileOutOfRange x0 y0) s) :=
  if_neg (Bool.eq_false_iff.mp hout)

theorem tileOutOfRange_column {x0 : Nat} (hx : 248 < x0) (y0 : Nat) : tileOutOfRange x0 y0 = outOfRange .ix x0 0 :=
  if_pos hx

theorem tileOutOfRange_row {x0 : Nat} (hx : x0 ≤ 248) (y0 : Nat) : tileOutOfRange x0 y0 = outOfRange .ix y0 1 :=
  if_neg hx.not_gt

/-- Settles O17: the bounds check raises its fault in the state the command began in, whatever the snapshot is. -/
theorem tileOutsideIxFaults : Obligations.TileOutsideIxFaults := by
  intro n h v x0 y0 s _ hs hout
  have hexec := exec_tile_outside ((tileFits_eq_false_iff x0 y0).mpr hout) n h v
  have hends := endsWithFault_raiseFault opTile (tileOutOfRange x0 y0) hs
  refine ⟨_, hexec s, fun hx => ?_, fun hx => ?_, keepsOutputs_raiseFault _ _ s, keepsOutside_raiseFault _ _ s,
    raiseFault_freeIndex _ _ s, fun m => ?_⟩
  · rwa [tileOutOfRange_column hx] at hends ⊢
  · rwa [tileOutOfRange_row hx] at hends ⊢
  · rw [hexec, raiseFault_setSnap]

end Sys2Proof
end

section
/-!
PROOFS. The palette resolver: the address of a group and a pixel value, its range and the slots it never selects (R90).
-/

namespace Sys2Proof

open Machine

@[simp] theorem palAddr_zero (g : Nat) : palAddr g 0 = 0 := if_pos rfl

theorem palAddr_of_ne_zero (g : Nat) {p : Nat} (hp : p ≠ 0) : palAddr g p = 4 * g + p := if_neg hp

theorem palAddr_lt {g p : Nat} (hg : g < 8) (hp : p < 4) : palAddr g p < 32 := by
  by_cases h0 : p = 0
  · subst h0; simp
  · rw [palAddr_of_ne_zero g h0]; omega

/-- The slot of the address inside its group is the pixel value. -/
theorem palAddr_mod_four (g : Nat) {p : Nat} (hp : p < 4) : palAddr g p % 4 = p := by
  by_cases h0 : p = 0
  · subst h0; simp
  · rw [palAddr_of_ne_zero g h0, Nat.mul_add_mod, Nat.mod_eq_of_lt hp]

/-- A slot 0 is selected by the pixel value 0 only, and that selects group 0's (R90, last sentence). -/
theorem palAddr_eq_zero_of_slot_zero {g p : Nat} (hp : p < 4) (hslot : palAddr g p % 4 = 0) : palAddr g p = 0 := by
  rw [palAddr_mod_four g hp] at hslot
  rw [hslot, palAddr_zero]

/-- The addresses R90 rules out are slots 0, and none is group 0's. -/
theorem slot_zero_of_mem_unselected : ∀ a ∈ [4, 8, 12, 16, 20, 24, 28], a % 4 = 0 ∧ a ≠ 0 := by decide

/-- Settles O20: the two cases are the definition's, and an excluded address would be a slot 0 other than group 0's. -/
theorem paletteAddressRule : Obligations.PaletteAddressRule := by
  intro g hg p hp
  refine ⟨fun h0 => h0 ▸ palAddr_zero g, palAddr_of_ne_zero g, palAddr_lt hg hp, fun hmem => ?_⟩
  obtain ⟨hslot, hne⟩ := slot_zero_of_mem_unselected _ hmem
  exact hne (palAddr_eq_zero_of_slot_zero hp hslot)

end Sys2Proof
end

section
/-!
PROOFS. A view command that renders a whole picture (R55, R44), said once for every view, and the Pattern-table view
(R101 to R104).
-/

namespace Sys2Proof

open Machine Claims

/-! ### A picture on a surface -/

/-- A written surface shows every picture whose colours its pixel function computes (R44, R55). -/
theorem shows_frameOf {w h : Nat} {pix : PixelFn Rgb} {is : Nat → Nat → Rgb → Prop}
    (hpix : ∀ x < w, ∀ y < h, ∀ c, is x y c → pix x y = .ok c) : Shows (frameOf w h pix) w h is := by
  refine ⟨fun x hx y hy c hc => ?_, fun a => Memory.read_of_below (below_frameOf w h pix)⟩
  have hread : ∀ k < 3, (frameOf w h pix).read (3 * (y * w + x) + k) = some (pixelByte c k) := by
    intro k hk
    have := read_frameOf pix hx hy hk
    rwa [hpix x hx y hy c hc] at this
  exact ⟨hread 0 (by decide), hread 1 (by decide), hread 2 (by decide)⟩

/-! ### Normal completion in the words of the statements (R158 step 8) -/

theorem endsNormally_complete_setSurface (s : State) (v : View) (m : Memory 8) :
    EndsNormally s (complete (s.setSurface v m)) :=
  ⟨rfl, rfl, rfl, rfl⟩

theorem keepsOutside_complete_setSurface (s : State) (v : View) (m : Memory 8) :
    KeepsOutside s (complete (s.setSurface v m)) :=
  ⟨rfl, rfl, rfl, rfl, rfl⟩

theorem keepsOtherOutputs_complete_setSurface (s : State) (v : View) (m : Memory 8) :
    KeepsOtherOutputs v s (complete (s.setSurface v m)) :=
  ⟨rfl, rfl, fun _ hu => State.setSurface_surface_other s m hu⟩

/-- A view command whose surface is ready and whose pixels all have a value writes its surface and completes. -/
theorem exec_view_of_pixels {i : Instr} {v : View} {s : State} (hv : viewOf i = some v) (hready : s.surfOk.get v = true)
    (hpix : ∀ x < v.width, ∀ y < v.height, ∃ c, pixelsOf i s x y = .ok c) :
    exec i s = .next (complete (s.setSurface v (frameOf v.width v.height (pixelsOf i s)))) := by
  rw [exec_view hv, ifSurfaceReady_ready hready, bodyOf_view hv, renderView_of_pixels hpix]

/-- A view command renders every picture whose colours its pixel function computes. -/
theorem rendersView_of_pixels {i : Instr} {v : View} {is : State → Nat → Nat → Rgb → Prop} (hv : viewOf i = some v)
    (hpix : ∀ s, ∀ x < v.width, ∀ y < v.height, ∀ c, is s x y c → pixelsOf i s x y = .ok c) :
    RendersView i v v.width v.height is := by
  intro s hready hdef
  have hok : ∀ x < v.width, ∀ y < v.height, ∃ c, pixelsOf i s x y = .ok c := fun x hx y hy =>
    (hdef x hx y hy).imp (hpix s x hx y hy)
  refine ⟨_, exec_view_of_pixels hv hready hok, ?_, endsNormally_complete_setSurface s v _,
    keepsOutside_complete_setSurface s v _, keepsOtherOutputs_complete_setSurface s v _⟩
  rw [complete_surface, State.setSurface_surface]
  exact shows_frameOf (hpix s)

/-! ### The Pattern-table view -/

/-- The grey of a pixel value is the ramp's byte for it in all three channels (R102). -/
theorem gray_eq_iff (ramp : Vector Byte 4) (p : PixVal) (c : Rgb) :
    gray ramp p = c ↔ ∃ i : Byte, ramp[p.toNat]? = some i ∧ c = i ++ i ++ i := by
  rw [Vector.getElem?_eq_getElem p.isLt]
  simp [gray, eq_comm]

/-- The view's 256 tiles are those of the pattern table it shows, so all lie inside `CHR` (R41, R101). -/
theorem tileNumber_patternCell_lt {sel x y : Nat} (hsel : sel < 2) (hx : x < 128) (hy : y < 128) :
    tileNumber sel (patternCell x y) < 512 := by
  unfold tileNumber patternCell; omega

/-- The view's pixel function computes exactly the colours of R103. -/
theorem patternPix_eq_ok_iff {s : State} {sel x y : Nat} {c : Rgb} (hsel : sel < 2) (hx : x < 128) (hy : y < 128) :
    patternPix s sel x y = .ok c ↔ PatternPixelIs s sel x y c := by
  have htile (p : PixVal) : tilePix s (tileNumber sel (patternCell x y)) (y % 8) (x % 8) = .ok p ↔
      TilePixelIs s (256 * sel + (y / 8 * 16 + x / 8)) (y % 8) (x % 8) p :=
    pixelBitsComeFromThePlanes s _ _ _ p (tileNumber_patternCell_lt hsel hx hy) (Nat.mod_lt y (by decide))
      (Nat.mod_lt x (by decide))
  simp only [patternPix, bind_eq_ok, pure_eq_ok, Except.ok.injEq, htile, gray_eq_iff, PatternPixelIs,
    exists_and_left]

/-- Settles O24: `PATTERN` is a view command, and its pixel function computes the picture's colours. -/
theorem patternRendersItsTable : Obligations.PatternRendersItsTable := fun sel hwf =>
  have hsel : sel < 2 := of_decide_eq_true hwf
  rendersView_of_pixels (i := .pattern sel) (v := .pattern) rfl fun _ _ hx _ hy _ =>
    (patternPix_eq_ok_iff hsel hx hy).mpr

end Sys2Proof
end

section
/-!
PROOFS. The Nametable view: the cell under a pixel and its colour (R111 to R113), the picture and the first fault of
`NAMETABLE` (R114, R116), and what bits 1:0 of the first `attr` byte colour (R117 (b)).
-/

namespace Sys2Proof

open Machine Claims

/-! ### The colour a palette byte names (R92, R93) -/

theorem readPal_eq_ok_iff {s : State} {a : Nat} {k : Byte} (ha : a < 32) :
    s.readPal a = .ok k ↔ s.snap.pal.read a = some k :=
  checkedRead_eq_ok.trans (and_iff_right ha)

theorem readCt_eq_ok_iff {s : State} {k aux : Nat} {e : Word} :
    s.readCt k aux = .ok e ↔ k < 64 ∧ s.snap.ct.read k = some e :=
  checkedRead_eq_ok

theorem paletteColour_eq_ok_iff {s : State} {a : Nat} {c : Rgb} (ha : a < 32) :
    paletteColour s a = .ok c ↔ ColourAt s a c := by
  simp only [paletteColour, bind_eq_ok, pure_eq_ok, Except.ok.injEq, readPal_eq_ok_iff ha, readCt_eq_ok_iff, ColourAt,
    entryRgb, and_assoc, exists_and_left, eq_comm (a := c)]

/-- A byte of 64 or more is reported as the `CT` index it would be, with its own address (R93). -/
theorem paletteColour_of_badByte {s : State} {a : Nat} {k : Byte} (ha : a < 32) (h : BadByteAt s a k) :
    paletteColour s a = .error (.fault (outOfRange .ct k.toNat a)) := by
  obtain ⟨hread, hbad⟩ := h
  have hct : s.readCt k.toNat a = .error (.fault (outOfRange .ct k.toNat a)) :=
    checkedRead_eq_error.mpr (.inl ⟨hbad, rfl⟩)
  rw [paletteColour, (readPal_eq_ok_iff ha).mpr hread, ok_bind, hct, error_bind]

/-! ### The first bad palette byte of a view (R159) -/

/-- A view whose used pixels take their colour from palette RAM faults at its first bad byte. -/
theorem faultsAtFirstBadByte_of_pixels {i : Instr} {v : View} {is : State → Nat → Nat → Rgb → Prop}
    {uses : State → Nat → Nat → Nat → Prop} (hv : viewOf i = some v)
    (hpix : ∀ s, ∀ x < v.width, ∀ y < v.height, ∀ c, is s x y c → pixelsOf i s x y = .ok c)
    (huses : ∀ s, ∀ x < v.width, ∀ y < v.height, ∀ a, uses s x y a → a < 32 ∧ pixelsOf i s x y = paletteColour s a) :
    FaultsAtFirstBadByte i i.opcode v v.width v.height is uses := by
  intro s x y a k hready hhealthy hx hy hu hbad hbefore
  obtain ⟨ha, hpixel⟩ := huses s x hx y hy a hu
  have hstop : firstStop v.width v.height (pixelsOf i s) = some (.fault (outOfRange .ct k.toNat a)) :=
    firstStop_eq_some.mpr ⟨x, hx, y, hy, hpixel.trans (paletteColour_of_badByte ha hbad), fun x' hx' y' hy' hlt =>
      (hbefore x' hx' y' hy' hlt).imp (hpix s x' hx' y' hy')⟩
  refine ⟨raiseFault i.opcode (outOfRange .ct k.toNat a) (spoilSurface v s), ?_,
    endsWithFault_raiseFault i.opcode _ (s := spoilSurface v s) hhealthy, keepsOutside_raiseFault _ _ (spoilSurface v s),
    raiseFault_ix _ _ _, raiseFault_rgb _ _ _, fun u hne => ?_⟩
  · rw [exec_view hv, ifSurfaceReady_ready hready, bodyOf_view hv, renderView_of_fault hstop]
  · rw [raiseFault_surface, spoilSurface_surface_other s hne]

/-! ### The cell under a pixel (R111, R112) -/

theorem readNt_eq_ok_iff {s : State} {b o : Nat} {v : Byte} (hb : b < 4) (ho : o < 2048) :
    s.readNt b o = .ok v ↔ s.snap.nt.read (2048 * b + o) = some v :=
  checkedRead_eq_ok.trans (and_iff_right (show 2048 * b + o < 8192 by omega))

theorem readBgsel_eq_ok_iff {s : State} {bg : BitVec 1} : s.readBgsel = .ok bg ↔ s.snap.bgsel = some bg := by
  unfold State.readBgsel
  cases s.snap.bgsel <;> simp

theorem gridOffset_lt {row col : Nat} (hrow : row < 30) (hcol : col < 32) : gridOffset row col < 960 := by
  unfold gridOffset; omega

/-- The 64 `attr` bytes of a bank, from their base. -/
theorem attrOffset_lt {row col : Nat} (base : Nat) (hrow : row < 30) (hcol : col < 32) :
    attrOffset base row col < base + 64 := by
  unfold attrOffset; omega

theorem attrGroup_eq (attr : Byte) (row col : Nat) :
    attrGroup attr row col = attr.toNat / 2 ^ attrShift row col % 4 := by
  simp [attrGroup, BitVec.toNat_and, Nat.shiftRight_eq_div_pow, Nat.and_two_pow_sub_one_eq_mod _ 2]

theorem attrGroup_lt (attr : Byte) (row col : Nat) : attrGroup attr row col < 4 := by
  rw [attrGroup_eq]; exact Nat.mod_lt _ (by decide)

theorem tileNumber_bgsel_lt (bg : BitVec 1) (idx : Byte) : tileNumber bg.toNat idx.toNat < 512 := by
  unfold tileNumber; omega

theorem cellTile_eq_ok_iff {s : State} {b row col t : Nat} : cellTile s b row col = .ok t ↔
    ∃ idx bg, s.readNt b (gridOffset row col) = .ok idx ∧ s.readBgsel = .ok bg ∧ tileNumber bg.toNat idx.toNat = t := by
  simp only [cellTile, bind_eq_ok, pure_eq_ok, Except.ok.injEq, exists_and_left]

theorem cellGroup_eq_ok_iff {s : State} {b row col g : Nat} : cellGroup s b row col = .ok g ↔
    ∃ attr, s.readNt b (attrOffset s.params.ntAttrBase.val row col) = .ok attr ∧ attrGroup attr row col = g := by
  simp only [cellGroup, bind_eq_ok, pure_eq_ok, Except.ok.injEq]

section Cell
variable {s : State} {b x y : Nat} (hb : b < 4) (hx : x < 256) (hy : y < 240)
include hb hx hy

/-- The tile and the group the model evaluates for a pixel are those of R111 and R112, and fit `CHR` and the
background groups. -/
theorem evaluates_of_nametableCell {t g : Nat} (h : NametableCell s b x y t g) :
    cellTile s b (y / 8) (x / 8) = .ok t ∧ cellGroup s b (y / 8) (x / 8) = .ok g ∧ t < 512 ∧ g < 4 := by
  obtain ⟨idx, attr, bg, hidx, hbg, hattr, ht, hg⟩ := h
  have hrow : y / 8 < 30 := by omega
  have hcol : x / 8 < 32 := by omega
  have hgrid : gridOffset (y / 8) (x / 8) < 2048 := (gridOffset_lt hrow hcol).trans (by decide)
  have htable : attrOffset s.params.ntAttrBase.val (y / 8) (x / 8) < 2048 := by
    have := attrOffset_lt s.params.ntAttrBase.val hrow hcol
    omega
  have hgroup : attrGroup attr (y / 8) (x / 8) = g := (attrGroup_eq _ _ _).trans hg.symm
  exact ⟨cellTile_eq_ok_iff.mpr
      ⟨idx, bg, (readNt_eq_ok_iff hb hgrid).mpr hidx, readBgsel_eq_ok_iff.mpr hbg, ht.symm⟩,
    cellGroup_eq_ok_iff.mpr ⟨attr, (readNt_eq_ok_iff hb htable).mpr hattr, hgroup⟩,
    ht ▸ tileNumber_bgsel_lt bg idx, hgroup ▸ attrGroup_lt _ _ _⟩

/-- A pixel of known value resolves under its cell's group, whatever that group is (R113). -/
theorem nametablePix_of_cell {t g : Nat} {p : PixVal} (hcell : NametableCell s b x y t g)
    (hp : TilePixelIs s t (y % 8) (x % 8) p) : nametablePix s b x y = resolve s g p.toNat := by
  obtain ⟨htile, hgroup, ht, _⟩ := evaluates_of_nametableCell hb hx hy hcell
  have hpix : tilePix s t (y % 8) (x % 8) = .ok p :=
    (pixelBitsComeFromThePlanes s t _ _ p ht (Nat.mod_lt y (by decide)) (Nat.mod_lt x (by decide))).mpr hp
  rw [nametablePix, htile, ok_bind, hgroup, ok_bind, hpix, ok_bind]

theorem nametablePix_of_uses {a : Nat} (h : NametableUses s b x y a) :
    a < 32 ∧ nametablePix s b x y = paletteColour s a := by
  obtain ⟨t, g, p, hcell, hp, rfl⟩ := h
  obtain ⟨_, _, _, hg⟩ := evaluates_of_nametableCell hb hx hy hcell
  exact ⟨palAddr_lt (hg.trans (by decide)) p.isLt, nametablePix_of_cell hb hx hy hcell hp⟩

theorem nametablePix_of_pixelIs {c : Rgb} (h : NametablePixelIs s b x y c) : nametablePix s b x y = .ok c := by
  obtain ⟨a, huses, hcolour⟩ := h
  obtain ⟨ha, hpix⟩ := nametablePix_of_uses hb hx hy huses
  exact hpix.trans ((paletteColour_eq_ok_iff ha).mpr hcolour)

end Cell

/-! ### The picture and the first fault -/

/-- Settles O25: `NAMETABLE` is a view command, and its pixel function computes the picture's colours. -/
theorem nametableRendersItsBank : Obligations.NametableRendersItsBank := fun b hwf =>
  have hb : b < 4 := of_decide_eq_true hwf
  rendersView_of_pixels (i := .nametable b) (v := .nametable) rfl fun _ _ hx _ hy _ =>
    nametablePix_of_pixelIs hb hx hy

/-- Settles O29: the colour of a pixel is the one of the palette byte it uses, so the first bad byte is the first
stop. -/
theorem nametableFaultsAtItsFirstBadByte : Obligations.NametableFaultsAtItsFirstBadByte := fun b hwf =>
  have hb : b < 4 := of_decide_eq_true hwf
  faultsAtFirstBadByte_of_pixels (i := .nametable b) (v := .nametable) rfl
    (fun _ _ hx _ hy _ => nametablePix_of_pixelIs hb hx hy) fun _ _ hx _ hy _ => nametablePix_of_uses hb hx hy

/-! ### What a poke of a nametable bank changes of a cell -/

theorem checkedRead_write_other {w : Nat} {sp : Space} (m : Memory w) {a i : Nat} (aux : Nat) (v : BitVec w)
    (h : i ≠ a) : checkedRead sp (m.write a v) i aux = checkedRead sp m i aux := by
  rw [checkedRead, checkedRead, Memory.read_write_other m v h]

/-- What is made of a read sees a write at that address only if it tells the new value from the old one. -/
theorem map_checkedRead_write {w : Nat} {α : Type} {sp : Space} {m : Memory w} {a i : Nat} (aux : Nat) {v : BitVec w}
    {f : BitVec w → α} (h : i = a → ∃ u, m.read a = some u ∧ f v = f u) :
    (checkedRead sp (m.write a v) i aux).map f = (checkedRead sp m i aux).map f := by
  by_cases hi : i = a
  · obtain ⟨u, hu, hf⟩ := h hi
    subst hi
    unfold checkedRead
    split
    · rfl
    · rw [Memory.read_write_same, hu]; exact congrArg Except.ok hf
  · rw [checkedRead_write_other m aux v hi]

theorem cellTile_pokeNt {s : State} {b o : Nat} (v : Byte) {b' row col : Nat}
    (h : ntKey b' (gridOffset row col) ≠ ntKey b o) : cellTile (pokeNt b o v s) b' row col = cellTile s b' row col := by
  have hread : (pokeNt b o v s).readNt b' (gridOffset row col) = s.readNt b' (gridOffset row col) :=
    checkedRead_write_other s.snap.nt 0 v h
  rw [cellTile, hread]; rfl

theorem cellGroup_eq_map (s : State) (b row col : Nat) : cellGroup s b row col =
    (s.readNt b (attrOffset s.params.ntAttrBase.val row col)).map fun attr => attrGroup attr row col := rfl

/-- A cell whose `attr` byte is replaced keeps its group if the two bits it selects are the same. -/
theorem cellGroup_pokeNt {s : State} {b o : Nat} {v : Byte} {b' row col : Nat}
    (h : ntKey b' (attrOffset s.params.ntAttrBase.val row col) = ntKey b o →
      ∃ u, s.snap.nt.read (ntKey b o) = some u ∧ attrGroup v row col = attrGroup u row col) :
    cellGroup (pokeNt b o v s) b' row col = cellGroup s b' row col := by
  rw [cellGroup_eq_map, cellGroup_eq_map]
  exact map_checkedRead_write 0 h

theorem nametablePix_pokeNt {s : State} {b o : Nat} {v : Byte} {b' x y : Nat}
    (htile : cellTile (pokeNt b o v s) b' (y / 8) (x / 8) = cellTile s b' (y / 8) (x / 8))
    (hgroup : cellGroup (pokeNt b o v s) b' (y / 8) (x / 8) = cellGroup s b' (y / 8) (x / 8)) :
    nametablePix (pokeNt b o v s) b' x y = nametablePix s b' x y := by
  rw [nametablePix, htile, hgroup]; rfl

/-! ### The first `attr` byte (R117 (b)) -/

/-- Bits below the shift of a cell do not reach its group. -/
theorem attrGroup_congr_of_shiftRight {attr attr' : Byte} {n row col : Nat} (h : attr' >>> n = attr >>> n)
    (hn : n ≤ attrShift row col) : attrGroup attr' row col = attrGroup attr row col := by
  obtain ⟨k, hk⟩ := Nat.exists_eq_add_of_le hn
  rw [attrGroup, attrGroup, hk, BitVec.shiftRight_add, BitVec.shiftRight_add, h]

/-- Of the 4 by 4 cells of the first `attr` byte, those past the top-left square have a shift of 2 or more. -/
theorem two_le_attrShift {x y : Nat} (hfirst : attrOffset 960 (y / 8) (x / 8) = 960) (hout : 16 ≤ x ∨ 16 ≤ y) :
    2 ≤ attrShift (y / 8) (x / 8) := by
  unfold attrOffset at hfirst
  unfold attrShift
  omega

/-- How a view command ends that takes no fault: the surface is kept (R157) or written whole (R55). -/
theorem surface_of_exec_healthy {i : Instr} {v : View} {s t : State} (hv : viewOf i = some v) (h : exec i s = .next t)
    (hhealthy : t.status.fault = false) :
    t.surface v = if s.surfOk.get v then frameOf v.width v.height (pixelsOf i s) else s.surface v := by
  rcases exec_next h with ⟨u, hu, hunready, rfl⟩ | ⟨hready, hbody⟩
  · obtain rfl : v = u := Option.some.inj (hv.symm.trans hu)
    rw [raiseSurfaceError_surface, if_neg (Bool.eq_false_iff.mp hunready)]
  · rw [if_pos (hready v hv)]
    rcases bodyOf_view_next hv hbody with ⟨_, rfl⟩ | ⟨f, _, _, rfl⟩
    · rw [complete_surface, State.setSurface_surface]
    · rw [raiseFault_fault] at hhealthy
      exact absurd hhealthy (by decide)

/-- Two fault-free renderings agree at every pixel at which their pixel functions do. -/
theorem surface_read_eq_of_pixel_eq {i : Instr} {v : View} {s s' t t' : State} (hv : viewOf i = some v)
    (h : exec i s = .next t) (h' : exec i s' = .next t') (hf : t.status.fault = false) (hf' : t'.status.fault = false)
    (hok : s'.surfOk.get v = s.surfOk.get v) (hsurface : s'.surface v = s.surface v) {x y k : Nat} (hx : x < v.width)
    (hy : y < v.height) (hk : k < 3) (hpix : pixelsOf i s' x y = pixelsOf i s x y) :
    (t'.surface v).read (pixelBase v.width x y + k) = (t.surface v).read (pixelBase v.width x y + k) := by
  rw [surface_of_exec_healthy hv h hf, surface_of_exec_healthy hv h' hf', hok, hsurface]
  split
  · rw [read_frameOf _ hx hy hk, read_frameOf _ hx hy hk, hpix]
  · rfl

section FirstAttributeByte
variable {s : State} {b x y : Nat} {attr attr' : Byte} (hx : x < 256) (hy : y < 240)
  (hbase : s.params.ntAttrBase.val = 960)
include hx hy

/-- The grid lies before the `attr` bytes, so no tile number changes. -/
theorem cellTile_pokeNt_firstAttr :
    cellTile (pokeNt b 960 attr' s) b (y / 8) (x / 8) = cellTile s b (y / 8) (x / 8) := by
  have := gridOffset_lt (row := y / 8) (col := x / 8) (by omega) (by omega)
  exact cellTile_pokeNt attr' (by unfold ntKey; omega)

/-- A poked bank still gives every written cell its tile and some group. -/
theorem exists_nametableCell_pokeNt {n g : Nat} (h : NametableCell s b x y n g) :
    ∃ g', NametableCell (pokeNt b 960 attr' s) b x y n g' := by
  obtain ⟨idx, attr, bg, hidx, hbg, hattr, hn, _⟩ := h
  have hidx' : (pokeNt b 960 attr' s).snap.nt.read (2048 * b + (y / 8 * 32 + x / 8)) = some idx :=
    (Memory.read_write_other _ _ (by omega)).trans hidx
  have hattr' : ∃ u, (s.snap.nt.write (2048 * b + 960) attr').read
      (2048 * b + (s.params.ntAttrBase.val + y / 8 / 4 * 8 + x / 8 / 4)) = some u := by
    rw [Memory.read_write]
    split
    · exact ⟨attr', rfl⟩
    · exact ⟨attr, hattr⟩
  obtain ⟨u, hu⟩ := hattr'
  exact ⟨_, idx, u, bg, hidx', hbg, hu, hn, rfl⟩

/-- Pixel value 0 resolves alike under every group (R91). -/
theorem nametablePix_pokeNt_zero (hb : b < 4) {n g : Nat} (hcell : NametableCell s b x y n g)
    (hzero : TilePixelIs s n (y % 8) (x % 8) 0) :
    nametablePix (pokeNt b 960 attr' s) b x y = nametablePix s b x y := by
  obtain ⟨g', hcell'⟩ := exists_nametableCell_pokeNt (attr' := attr') hx hy hcell
  calc nametablePix (pokeNt b 960 attr' s) b x y
      = resolve (pokeNt b 960 attr' s) g' 0 := nametablePix_of_cell hb hx hy hcell' hzero
    _ = resolve s g 0 := rfl
    _ = nametablePix s b x y := (nametablePix_of_cell hb hx hy hcell hzero).symm

include hbase

theorem nametablePix_pokeNt_outside (hattr : s.snap.nt.read (2048 * b + 960) = some attr)
    (hbits : attr' >>> 2 = attr >>> 2) (hout : 16 ≤ x ∨ 16 ≤ y) :
    nametablePix (pokeNt b 960 attr' s) b x y = nametablePix s b x y := by
  refine nametablePix_pokeNt (cellTile_pokeNt_firstAttr hx hy) (cellGroup_pokeNt fun hkey => ⟨attr, hattr, ?_⟩)
  have hfirst : attrOffset 960 (y / 8) (x / 8) = 960 := by rw [hbase] at hkey; exact Nat.add_left_cancel hkey
  exact attrGroup_congr_of_shiftRight hbits (two_le_attrShift hfirst hout)

end FirstAttributeByte

/-- Settles O33: the pixel function is the same at each of these pixels, by its cell's group or by its value. -/
theorem attributeBitsColourOneQuadrant : Obligations.AttributeBitsColourOneQuadrant := by
  intro b s t t' attr attr' hwf hbase hattr hbits ht ht' hf hf' x hx y hy hpixel k hk
  have hpix : nametablePix (pokeNt b 960 attr' s) b x y = nametablePix s b x y := by
    rcases or_assoc.mpr hpixel with hout | ⟨n, g, hcell, hzero⟩
    · exact nametablePix_pokeNt_outside hx hy hbase hattr hbits hout
    · exact nametablePix_pokeNt_zero hx hy (of_decide_eq_true hwf) hcell hzero
  exact surface_read_eq_of_pixel_eq (i := .nametable b) (v := .nametable) rfl ht ht' hf hf' rfl rfl hx hy hk hpix

end Sys2Proof
end

section
/-!
PROOFS. Noninterference of the snapshot: a command's outcome depends on the snapshot only through what it evaluates, so
bytes and bits that no command reads change no outcome (R95 (d), R117 (f), R120; R11, R112, R122).
-/

namespace Sys2Proof

open Machine Claims

/-! ### A command's outcome depends on what it evaluates -/

/-- All that a command evaluates on the snapshot is the same in both states. -/
structure EvaluatesAlike (i : Instr) (s s' : State) : Prop where
  cells : ∀ t h v x0 y0, i = .tile t h v x0 y0 → ∀ c r, tileGrid s' t h v r c = tileGrid s t h v r c
  colour : ∀ g p, i = .resolve g p → resolve s' g p = resolve s g p
  pixels : ∀ v, viewOf i = some v → ∀ x < v.width, ∀ y < v.height, pixelsOf i s' x y = pixelsOf i s x y

theorem stopped_setSnap (op : Nibble) (e : Stop) (s : State) (n : Snapshot) :
    stopped op e (s.setSnap n) = mapNext (·.setSnap n) (stopped op e s) := by
  cases e with
  | fault f => exact congrArg Host.Outcome.next (raiseFault_setSnap op f s n)
  | unwritten sp a => rfl

@[simp] theorem mapNext_next (f : State → State) (s : State) : mapNext f (.next s) = .next (f s) := rfl

theorem complete_setIx_setSnap (s : State) (n : Snapshot) (m : Memory 2) :
    complete ((s.setSnap n).setIx m) = (complete (s.setIx m)).setSnap n := rfl

theorem tileBody_setSnap {t x0 y0 : Nat} {h v : Bool} {s : State} {n : Snapshot}
    (hcells : ∀ c r, tileGrid (s.setSnap n) t h v r c = tileGrid s t h v r c) :
    tileBody t h v x0 y0 (s.setSnap n) = mapNext (·.setSnap n) (tileBody t h v x0 y0 s) := by
  unfold tileBody
  simp only [hcells]
  split
  · cases firstStop 8 8 fun c r => tileGrid s t h v r c with
    | none => simp only [mapNext_next, State.setSnap_ix, complete_setIx_setSnap]
    | some e => simp only [stopped_setSnap]
  · exact congrArg Host.Outcome.next (raiseFault_setSnap _ _ _ _)

theorem resolveBody_setSnap {g p : Nat} {s : State} {n : Snapshot}
    (hcolour : resolve (s.setSnap n) g p = resolve s g p) :
    resolveBody g p (s.setSnap n) = mapNext (·.setSnap n) (resolveBody g p s) := by
  unfold resolveBody
  rw [hcolour]
  split
  · rfl
  · exact stopped_setSnap _ _ _ _

theorem endView_setSnap {v : View} {op : Nibble} {pix pix' : PixelFn Rgb} {s : State} {n : Snapshot}
    (hpix : ∀ x < v.width, ∀ y < v.height, pix' x y = pix x y) :
    endView v op pix' (s.setSnap n) = (endView v op pix s).setSnap n := by
  unfold endView
  rw [firstStop_congr hpix, frameOf_congr hpix]
  split
  · exact raiseFault_setSnap _ _ (spoilSurface v s) n
  · rfl

theorem exec_view_setSnap {i : Instr} {v : View} {s : State} {n : Snapshot} (hv : viewOf i = some v)
    (hpix : ∀ x < v.width, ∀ y < v.height, pixelsOf i (s.setSnap n) x y = pixelsOf i s x y) :
    exec i (s.setSnap n) = mapNext (·.setSnap n) (exec i s) := by
  rw [exec_view hv, exec_view hv, ifSurfaceReady, ifSurfaceReady, bodyOf_view hv, bodyOf_view hv, renderView, renderView,
    launchGap_eq, launchGap_eq, firstStop_congr hpix, endView_setSnap hpix, State.setSnap_surfOk]
  split
  · split <;> rfl
  · rfl

/-- On another snapshot on which it evaluates alike a command does the same. -/
theorem exec_setSnap {i : Instr} {s : State} {n : Snapshot} (h : EvaluatesAlike i s (s.setSnap n)) :
    exec i (s.setSnap n) = mapNext (·.setSnap n) (exec i s) := by
  cases i with
  | tile t fh fv x0 y0 => exact tileBody_setSnap (h.cells t fh fv x0 y0 rfl)
  | resolve g p => exact resolveBody_setSnap (h.colour g p rfl)
  | pattern sel => exact exec_view_setSnap rfl (h.pixels .pattern rfl)
  | nametable b => exact exec_view_setSnap rfl (h.pixels .nametable rfl)
  | oamview => exact exec_view_setSnap rfl (h.pixels .oam rfl)
  | colors => exact exec_view_setSnap rfl (h.pixels .colors rfl)
  | palette => exact exec_view_setSnap rfl (h.pixels .palette rfl)

/-- No command writes the snapshot: with the snapshot it has, a command ends in a state that has it. -/
theorem exec_keeps_snap {i : Instr} {s t : State} (h : exec i s = .next t) : t.snap = s.snap := by
  have hsame : exec i s = mapNext (·.setSnap s.snap) (exec i s) :=
    exec_setSnap (n := s.snap) ⟨fun _ _ _ _ _ _ _ _ => rfl, fun _ _ _ => rfl, fun _ _ _ _ _ _ => rfl⟩
  rw [h, mapNext_next, Host.Outcome.next.injEq] at hsame
  rw [hsame, State.setSnap_snap]

/-- The state is changed in its snapshot only, by a function of the snapshot. -/
def ChangesSnapshotOnly (poke : State → State) : Prop :=
  ∃ f : Snapshot → Snapshot, ∀ s, poke s = s.setSnap (f s.snap)

theorem changesSnapshotOnly_pokeCt (k : Nat) (e : Word) : ChangesSnapshotOnly (pokeCt k e) :=
  ⟨fun n => { n with ct := n.ct.write k e }, fun _ => rfl⟩
theorem changesSnapshotOnly_pokePal (a : Nat) (v : Byte) : ChangesSnapshotOnly (pokePal a v) :=
  ⟨fun n => { n with pal := n.pal.write a v }, fun _ => rfl⟩
theorem changesSnapshotOnly_pokeNt (b o : Nat) (v : Byte) : ChangesSnapshotOnly (pokeNt b o v) :=
  ⟨fun n => { n with nt := n.nt.write (2048 * b + o) v }, fun _ => rfl⟩
theorem changesSnapshotOnly_pokeOam (a : Nat) (v : Byte) : ChangesSnapshotOnly (pokeOam a v) :=
  ⟨fun n => { n with oam := n.oam.write a v }, fun _ => rfl⟩

/-- A change of the snapshot on which a command evaluates alike can be made before it or after it. -/
theorem exec_poke {i : Instr} {s : State} {poke : State → State} (hpoke : ChangesSnapshotOnly poke)
    (h : EvaluatesAlike i s (poke s)) : exec i (poke s) = mapNext poke (exec i s) := by
  obtain ⟨f, hf⟩ := hpoke
  rw [hf] at h ⊢
  rw [exec_setSnap h]
  cases hexec : exec i s with
  | next t => rw [mapNext_next, mapNext_next, hf, exec_keeps_snap hexec]
  | fault r => rfl
  | refused r => rfl

/-! ### What the commands read -/

/-- The two states differ at most in what no pixel function looks at: slot 0 of the palette groups but group 0's (R90),
bits 31:24 of `CT` (R11), `NT` bytes and bits that are of no cell (R111, R112), the y and x bytes of the sprites (R120)
and bits 5:2 of their `at` bytes (R122). -/
structure ReadsAlike (s s' : State) : Prop where
  ramp : s'.params = s.params := by rfl
  chr : s'.readChr = s.readChr := by rfl
  tall : s'.readTall = s.readTall := by rfl
  bgsel : s'.readBgsel = s.readBgsel := by rfl
  pal : ∀ a, (a % 4 = 0 → a = 0) → s'.readPal a = s.readPal a := by intros; rfl
  ct : ∀ k aux, (s'.readCt k aux).map entryRgb = (s.readCt k aux).map entryRgb := by intros; rfl
  cellTile : ∀ b, ∀ row < 30, ∀ col < 32, cellTile s' b row col = cellTile s b row col := by intros; rfl
  cellGroup : ∀ b, ∀ row < 30, ∀ col < 32, cellGroup s' b row col = cellGroup s b row col := by intros; rfl
  oamIndex : ∀ n, s'.readOam (oamIndexAddr n) = s.readOam (oamIndexAddr n) := by intros; rfl
  oamAttr : ∀ n, (s'.readOam (oamAttrAddr n)).map (· &&& 0xC3) = (s.readOam (oamAttrAddr n)).map (· &&& 0xC3) := by
    intros; rfl

/-- Two evaluations go on alike from results that agree in all that is looked at. -/
theorem bind_congr_of_map_eq {α β γ : Type} {x y : Except Stop α} {f : α → β} {k : α → Except Stop γ}
    (h : x.map f = y.map f) (hk : ∀ a a', f a = f a' → k a = k a') : (x >>= k) = (y >>= k) := by
  cases x <;> cases y <;> simp only [Except.map, reduceCtorEq, Except.error.injEq, Except.ok.injEq] at h
  · rw [h]
  · exact hk _ _ h

theorem spriteHflip_and_mask (a : Byte) : spriteHflip (a &&& 0xC3) = spriteHflip a := by simp [spriteHflip]
theorem spriteVflip_and_mask (a : Byte) : spriteVflip (a &&& 0xC3) = spriteVflip a := by simp [spriteVflip]
theorem spriteGroup_and_mask (a : Byte) : spriteGroup (a &&& 0xC3) = spriteGroup a := by
  rw [spriteGroup, BitVec.and_assoc]; rfl

/-- The flips and the group of a sprite lie in bits 7, 6 and 1:0 of its `at` byte (R122). -/
theorem sprite_fields_congr {a a' : Byte} (h : a &&& 0xC3 = a' &&& 0xC3) :
    spriteHflip a = spriteHflip a' ∧ spriteVflip a = spriteVflip a' ∧ spriteGroup a = spriteGroup a' := by
  rw [← spriteHflip_and_mask a, ← spriteVflip_and_mask a, ← spriteGroup_and_mask a, h, spriteHflip_and_mask,
    spriteVflip_and_mask, spriteGroup_and_mask]
  exact ⟨rfl, rfl, rfl⟩

/-- The Palette view reads slot 0 of group 0 only (R137). -/
theorem paletteViewAddr_live (i : Nat) : paletteViewAddr i % 4 = 0 → paletteViewAddr i = 0 := by
  unfold paletteViewAddr; split <;> omega

section Alike
variable {s s' : State} (h : ReadsAlike s s')
include h

theorem paletteColour_congr {a : Nat} (ha : s'.readPal a = s.readPal a) : paletteColour s' a = paletteColour s a := by
  rw [paletteColour, paletteColour, ha]
  refine congrArg (s.readPal a >>= ·) (funext fun k => bind_congr_of_map_eq (h.ct k.toNat a) fun e e' he => ?_)
  rw [he]

theorem resolve_congr (g : Nat) (p : PixVal) : resolve s' g p.toNat = resolve s g p.toNat :=
  paletteColour_congr h (h.pal _ (palAddr_eq_zero_of_slot_zero p.isLt))

theorem tilePix_congr (t r c : Nat) : tilePix s' t r c = tilePix s t r c := by
  rw [tilePix, tilePix, h.chr]

theorem tileGrid_congr (t : Nat) (fh fv : Bool) (r c : Nat) : tileGrid s' t fh fv r c = tileGrid s t fh fv r c :=
  tilePix_congr h _ _ _

theorem patternPix_congr (sel x y : Nat) : patternPix s' sel x y = patternPix s sel x y := by
  rw [patternPix, patternPix, tilePix_congr h, h.ramp]

theorem nametablePix_congr (b : Nat) {x y : Nat} (hx : x < 256) (hy : y < 240) :
    nametablePix s' b x y = nametablePix s b x y := by
  have hrow : y / 8 < 30 := by omega
  have hcol : x / 8 < 32 := by omega
  simp only [nametablePix, h.cellTile b _ hrow _ hcol, h.cellGroup b _ hrow _ hcol, tilePix_congr h, resolve_congr h]

theorem spritePix_congr (n r c : Nat) (tileOf : Byte → Nat) : spritePix s' n r c tileOf = spritePix s n r c tileOf := by
  simp only [spritePix, h.oamIndex, tileGrid_congr h, resolve_congr h]
  refine congrArg (s.readOam (oamIndexAddr n) >>= ·) (funext fun idx =>
    bind_congr_of_map_eq (h.oamAttr n) fun a a' ha => ?_)
  obtain ⟨hh, hv, hg⟩ := sprite_fields_congr ha
  rw [hh, hv, hg]

theorem oamPix_congr (x y : Nat) : oamPix s' x y = oamPix s x y := by
  simp only [oamPix, h.tall, h.bgsel, h.ramp, spritePix_congr h]

theorem colorsPix_congr (x y : Nat) : colorsPix s' x y = colorsPix s x y :=
  bind_congr_of_map_eq (h.ct _ _) fun _ _ he => by rw [he]

theorem palettePix_congr (x y : Nat) : palettePix s' x y = palettePix s x y :=
  paletteColour_congr h (h.pal _ (paletteViewAddr_live _))

/-- States that read alike are alike to every command; for a `RESOLVE` of any operands, if it reads its byte alike. -/
theorem ReadsAlike.evaluatesAlike {i : Instr}
    (hres : ∀ g p, i = .resolve g p → s'.readPal (palAddr g p) = s.readPal (palAddr g p)) : EvaluatesAlike i s s' where
  cells t fh fv _ _ _ c r := tileGrid_congr h t fh fv r c
  colour g p hi := paletteColour_congr h (hres g p hi)
  pixels v hv x hx y hy := by
    cases i with
    | tile => cases hv
    | resolve => cases hv
    | pattern sel => exact patternPix_congr h sel x y
    | nametable b => obtain rfl := Option.some.inj hv; exact nametablePix_congr h b hx hy
    | oamview => exact oamPix_congr h x y
    | colors => exact colorsPix_congr h x y
    | palette => exact palettePix_congr h x y

end Alike

/-- A change of the snapshot that leaves `PAL` alone and is not seen by any pixel function is seen by no command. -/
theorem exec_poke_of_readsAlike {i : Instr} {s : State} {poke : State → State} (hpoke : ChangesSnapshotOnly poke)
    (hpal : (poke s).readPal = s.readPal) (h : ReadsAlike s (poke s)) :
    exec i (poke s) = mapNext poke (exec i s) :=
  exec_poke hpoke (h.evaluatesAlike fun _ _ _ => congrFun hpal _)

/-! ### Dead bytes -/

theorem readsAlike_pokePal {g : Nat} (hg : 1 ≤ g) (v : Byte) (s : State) : ReadsAlike s (pokePal (4 * g) v s) where
  pal a ha := checkedRead_write_other s.snap.pal 0 v (by omega)

theorem readsAlike_pokeNt_dead {b o : Nat} {s : State} (v : Byte) (hbase : s.params.ntAttrBase.val = 960)
    (hlo : 1024 ≤ o) (hhi : o < 2048) : ReadsAlike s (pokeNt b o v s) where
  cellTile b' row hrow col hcol := by
    have := gridOffset_lt hrow hcol
    exact cellTile_pokeNt v (by unfold ntKey; omega)
  cellGroup b' row hrow col hcol := cellGroup_pokeNt fun hkey => by
    have := attrOffset_lt s.params.ntAttrBase.val hrow hcol
    unfold ntKey at hkey
    omega

theorem readsAlike_pokeOam_position {a : Nat} (ha : a % 4 = 0 ∨ a % 4 = 3) (v : Byte) (s : State) :
    ReadsAlike s (pokeOam a v s) where
  oamIndex n := checkedRead_write_other s.snap.oam 0 v (by unfold oamIndexAddr; omega)
  oamAttr n := congrArg _ (checkedRead_write_other s.snap.oam 0 v (by unfold oamAttrAddr; omega))

/-- Settles O41: on a poked snapshot every command evaluates alike. -/
theorem deadBytesChangeNothing : Obligations.DeadBytesChangeNothing := by
  intro i s v hwf
  refine ⟨fun g hg _ => ?_, fun b o hbase _ hlo hhi => ?_, fun n _ => ⟨?_, ?_⟩⟩
  · have halike := readsAlike_pokePal hg v s
    refine exec_poke (changesSnapshotOnly_pokePal _ _) (halike.evaluatesAlike fun g' p hi => halike.pal _ ?_)
    subst hi
    exact palAddr_eq_zero_of_slot_zero (of_decide_eq_true (Bool.and_eq_true_iff.mp hwf).2)
  · exact exec_poke_of_readsAlike (changesSnapshotOnly_pokeNt _ _ _) rfl (readsAlike_pokeNt_dead v hbase hlo hhi)
  · exact exec_poke_of_readsAlike (changesSnapshotOnly_pokeOam _ _) rfl (readsAlike_pokeOam_position (by omega) v s)
  · exact exec_poke_of_readsAlike (changesSnapshotOnly_pokeOam _ _) rfl (readsAlike_pokeOam_position (by omega) v s)

/-! ### Dead bits -/

theorem readsAlike_pokeCt {k : Nat} {e e' : Word} {s : State} (he : s.snap.ct.read k = some e)
    (hbits : e'.extractLsb' 0 24 = e.extractLsb' 0 24) : ReadsAlike s (pokeCt k e' s) where
  ct _ aux := map_checkedRead_write aux fun _ => ⟨e, he, hbits⟩

theorem readsAlike_pokeOam_attr {n : Nat} {a a' : Byte} {s : State} (ha : s.snap.oam.read (4 * n + 2) = some a)
    (hbits : a' &&& 0xC3 = a &&& 0xC3) : ReadsAlike s (pokeOam (4 * n + 2) a' s) where
  oamIndex n' := checkedRead_write_other s.snap.oam 0 a' (by unfold oamIndexAddr; omega)
  oamAttr _ := map_checkedRead_write 0 fun _ => ⟨a, ha, hbits⟩

/-- A cell of the last row of `attr` bytes is in grid row 28 or 29, so its shift is 0 or 2 (R112). -/
theorem attrShift_of_lastRow {row col : Nat} (hrow : row < 30) (hlast : row / 4 = 7) :
    attrShift row col = 0 ∨ attrShift row col = 2 := by
  unfold attrShift; omega

/-- With a shift of 0 or 2 a group lies in bits 3:0. -/
theorem attrGroup_congr_of_lowNibble {a a' : Byte} {row col : Nat} (hbits : a' &&& 0x0F = a &&& 0x0F)
    (hshift : attrShift row col = 0 ∨ attrShift row col = 2) : attrGroup a' row col = attrGroup a row col := by
  have hmod : a'.toNat % 16 = a.toNat % 16 := by
    have := congrArg BitVec.toNat hbits
    simpa [BitVec.toNat_and, Nat.and_two_pow_sub_one_eq_mod _ 4] using this
  rw [attrGroup_eq, attrGroup_eq]
  rcases hshift with hs | hs <;> rw [hs] <;> omega

theorem readsAlike_pokeNt_lastRow {b j : Nat} {a a' : Byte} {s : State} (hbase : s.params.ntAttrBase.val = 960)
    (hj : j < 8) (ha : s.snap.nt.read (2048 * b + (1016 + j)) = some a) (hbits : a' &&& 0x0F = a &&& 0x0F) :
    ReadsAlike s (pokeNt b (1016 + j) a' s) where
  cellTile b' row hrow col hcol := by
    have := gridOffset_lt hrow hcol
    exact cellTile_pokeNt a' (by unfold ntKey; omega)
  cellGroup b' row hrow col hcol := cellGroup_pokeNt fun hkey => by
    have hlast : row / 4 = 7 := by unfold ntKey attrOffset at hkey; omega
    exact ⟨a, ha, attrGroup_congr_of_lowNibble hbits (attrShift_of_lastRow hrow hlast)⟩

/-- Settles O56: on a poked snapshot every command evaluates alike, whatever its operands. -/
theorem deadBitsChangeNothing : Obligations.DeadBitsChangeNothing := fun _ _ =>
  ⟨fun _ _ _ he hbits => exec_poke_of_readsAlike (changesSnapshotOnly_pokeCt _ _) rfl (readsAlike_pokeCt he hbits),
    fun _ _ _ ha hbits => exec_poke_of_readsAlike (changesSnapshotOnly_pokeOam _ _) rfl (readsAlike_pokeOam_attr ha hbits),
    fun _ _ _ _ hbase _ hj ha hbits =>
      exec_poke_of_readsAlike (changesSnapshotOnly_pokeNt _ _ _) rfl (readsAlike_pokeNt_lastRow hbase hj ha hbits)⟩

end Sys2Proof
end

section
/-!
PROOFS. The OAM / sprite view: the sprite under a pixel of the strip (R121 to R124), its colour (R125 to R127), the
picture and the first fault of `OAMVIEW` (R128).
-/

namespace Sys2Proof

open Machine Claims

/-! ### What the pixel function reads -/

theorem readOam_eq_ok_iff {s : State} {a : Nat} {b : Byte} (ha : a < 256) :
    s.readOam a = .ok b ↔ s.snap.oam.read a = some b :=
  checkedRead_eq_ok.trans (and_iff_right ha)

theorem readTall_eq_ok_iff {s : State} {b : Bool} : s.readTall = .ok b ↔ s.snap.tall = some b := by
  unfold State.readTall
  cases s.snap.tall <;> simp

/-- The strip shows the 64 sprites (R121). -/
theorem stripSprite_lt {x y : Nat} (hx : x < 256) (hy : y < 32) : stripSprite x y < 64 := by
  unfold stripSprite; omega

theorem stripHalf_lt (y : Nat) : stripHalf y < 2 := by
  unfold stripHalf; omega

/-! ### The fields of a sprite (R122 to R124) -/

theorem spriteGroup_eq (attr : Byte) : spriteGroup attr = 4 + attr.toNat % 4 := by
  simp [spriteGroup, BitVec.toNat_and, Nat.and_two_pow_sub_one_eq_mod _ 2]

theorem toNat_masks_of_bit_zero : ∀ b : Byte, (b &&& 0x01).toNat = b.toNat % 2 ∧
    (b &&& 0xFE).toNat = b.toNat / 2 * 2 ∧ (b ||| 0x01).toNat = b.toNat / 2 * 2 + 1 := by decide

/-- A tall sprite is the even tile of its pair above the odd one, in the table of bit 0 of its index (R123). -/
theorem tallTile_eq (idx : Byte) {half : Nat} (hhalf : half < 2) :
    tallTile idx half = 256 * (idx.toNat % 2) + (idx.toNat / 2 * 2 + half) := by
  obtain ⟨htable, heven, hodd⟩ := toNat_masks_of_bit_zero idx
  obtain rfl | rfl : half = 0 ∨ half = 1 := by omega
  · rw [tallTile, if_pos rfl, htable, heven]; rfl
  · rw [tallTile, if_neg Nat.one_ne_zero, htable, hodd]; rfl

/-! ### The pixel function in each of its cases (R127) -/

theorem spritePix_of_reads {s : State} {n : Nat} {idx attr : Byte} (hn : n < 64)
    (hidx : s.snap.oam.read (4 * n + 1) = some idx) (hattr : s.snap.oam.read (4 * n + 2) = some attr)
    (r c : Nat) (tileOf : Byte → Nat) : spritePix s n r c tileOf =
      tileGrid s (tileOf idx) (spriteHflip attr) (spriteVflip attr) r c >>=
        fun p => resolve s (spriteGroup attr) p.toNat := by
  have hi : s.readOam (oamIndexAddr n) = .ok idx := (readOam_eq_ok_iff (by unfold oamIndexAddr; omega)).mpr hidx
  have ha : s.readOam (oamAttrAddr n) = .ok attr := (readOam_eq_ok_iff (by unfold oamAttrAddr; omega)).mpr hattr
  rw [spritePix, hi, ok_bind, ha, ok_bind]

theorem oamPix_of_tall {s : State} (htall : s.snap.tall = some true) (x y : Nat) : oamPix s x y =
    spritePix s (stripSprite x y) (y % 8) (x % 8) fun idx => tallTile idx (stripHalf y) := by
  rw [oamPix, readTall_eq_ok_iff.mpr htall, ok_bind, if_pos rfl]

theorem oamPix_of_short_upper {s : State} {bg : BitVec 1} {y : Nat} (htall : s.snap.tall = some false)
    (hupper : y % 16 < 8) (hbg : s.snap.bgsel = some bg) (x : Nat) : oamPix s x y =
      spritePix s (stripSprite x y) (y % 8) (x % 8) fun idx => shortTile bg idx := by
  have hhalf : stripHalf y = 0 := Nat.div_eq_of_lt hupper
  rw [oamPix, readTall_eq_ok_iff.mpr htall, ok_bind, if_neg Bool.false_ne_true, if_pos hhalf,
    readBgsel_eq_ok_iff.mpr hbg, ok_bind]

theorem oamPix_of_short_lower {s : State} {y : Nat} (htall : s.snap.tall = some false) (hlower : 8 ≤ y % 16)
    (x : Nat) : oamPix s x y = .ok s.params.oamFill := by
  have hhalf : stripHalf y ≠ 0 := by unfold stripHalf; omega
  rw [oamPix, readTall_eq_ok_iff.mpr htall, ok_bind, if_neg Bool.false_ne_true, if_neg hhalf]; rfl

/-! ### The pixel of a sprite -/

section Pixel
variable {s : State} {x y : Nat} (hx : x < 256) (hy : y < 32)
include hx hy

/-- The tile, the flips and the group the model evaluates for a pixel are those of R121 to R124, and fit `CHR` and the
sprite groups. -/
theorem evaluates_of_stripTile {t g : Nat} {h v : Bool} (hstrip : StripTile s x y t h v g) :
    oamPix s x y = (tileGrid s t h v (y % 8) (x % 8) >>= fun p => resolve s g p.toNat) ∧ t < 512 ∧ g < 8 := by
  obtain ⟨idx, attr, hidx, hattr, rfl, rfl, rfl, hmode⟩ := hstrip
  have hsprite := spritePix_of_reads (stripSprite_lt hx hy) hidx hattr (y % 8) (x % 8)
  rw [spriteGroup_eq] at hsprite
  refine ⟨?_, ?_, by omega⟩
  · rcases hmode with ⟨htall, rfl⟩ | ⟨hshort, hupper, bg, hbg, rfl⟩
    · rw [oamPix_of_tall htall, hsprite, tallTile_eq idx (stripHalf_lt y)]; rfl
    · rw [oamPix_of_short_upper hshort hupper hbg, hsprite]; rfl
  · rcases hmode with ⟨-, rfl⟩ | ⟨-, -, bg, -, rfl⟩ <;> omega

/-- A used pixel takes its colour from palette RAM (R125, R126). -/
theorem oamPix_of_uses {a : Nat} (huses : OamUses s x y a) : a < 32 ∧ oamPix s x y = paletteColour s a := by
  obtain ⟨t, h, v, g, p, hstrip, hp, rfl⟩ := huses
  obtain ⟨hpix, ht, hg⟩ := evaluates_of_stripTile hx hy hstrip
  have hgrid : tileGrid s t h v (y % 8) (x % 8) = .ok p :=
    (pixelBitsComeFromThePlanes s t _ _ p ht (reverseIf_lt v (Nat.mod_lt y (by decide)))
      (reverseIf_lt h (Nat.mod_lt x (by decide)))).mpr hp
  rw [hgrid, ok_bind] at hpix
  exact ⟨palAddr_lt hg p.isLt, hpix⟩

theorem oamPix_of_pixelIs {c : Rgb} (h : OamPixelIs s x y c) : oamPix s x y = .ok c := by
  rcases h with ⟨a, huses, hcolour⟩ | ⟨hshort, hlower, rfl⟩
  · obtain ⟨ha, hpix⟩ := oamPix_of_uses hx hy huses
    exact hpix.trans ((paletteColour_eq_ok_iff ha).mpr hcolour)
  · exact oamPix_of_short_lower hshort hlower x

end Pixel

/-! ### The picture and the first fault -/

/-- Settles O26: `OAMVIEW` is a view command, and its pixel function computes the strip's colours. -/
theorem oamviewRendersTheStrip : Obligations.OamviewRendersTheStrip :=
  rendersView_of_pixels (i := .oamview) (v := .oam) rfl fun _ _ hx _ hy _ => oamPix_of_pixelIs hx hy

/-- Settles O30: a sprite's pixel has the colour of the palette byte it uses, so the first bad byte is the first stop;
the pixels of `OAM_FILL` stop nothing. -/
theorem oamviewFaultsAtItsFirstBadByte : Obligations.OamviewFaultsAtItsFirstBadByte :=
  faultsAtFirstBadByte_of_pixels (i := .oamview) (v := .oam) rfl (fun _ _ hx _ hy _ => oamPix_of_pixelIs hx hy)
    fun _ _ hx _ hy _ => oamPix_of_uses hx hy

end Sys2Proof
end

section
/-!
PROOFS. The exceptions: what a `CMD` write does that is illegal, comes while a command is in flight, or comes while a
fault stands (R154, R155, R160), and that no step records the code of `Invariant` (R153).
-/

namespace Sys2Proof

open Machine Claims

/-! ### One `CMD` write in either form -/

/-- Where the two forms of a `CMD` write agree, a step that performs one of them does what they do. -/
theorem step_of_isCmdWrite {s t : State} {e : Event} {w : Word} {rest : List Event} (he : IsCmdWrite e w)
    (hin : s.inputs = e :: rest) (hatomic : cmdWrite w (s.setInputs rest) = .next t)
    (htimed : cmdBegin w (s.setInputs rest) = t) : step s = .next t := by
  rw [step_of_event hin]
  rcases he with rfl | rfl
  · exact hatomic
  · exact congrArg Host.Outcome.next htimed

/-- R158 steps 1 to 5: the two forms of a `CMD` write part only once the command is accepted. -/
theorem cmdWrite_cases (w : Word) (s : State) :
    (s.status.busy = true ∧ cmdWrite w s = .next (overrun w s) ∧ cmdBegin w s = overrun w s) ∨
    (s.status.busy = false ∧ s.status.fault = true ∧ cmdWrite w s = .next s ∧ cmdBegin w s = s) ∨
    (s.status.busy = false ∧ s.status.fault = false ∧ cmdWrite w s = .next (illegal w s) ∧
      cmdBegin w s = illegal w s) ∨
    ∃ i, s.status.busy = false ∧ s.status.fault = false ∧ decode w = .ok i ∧
      cmdWrite w s = exec i (acceptCommand w s) ∧ cmdBegin w s = sampleSurface i (acceptCommand w s) := by
  cases hb : s.status.busy with
  | true => exact .inl ⟨rfl, cmdWrite_of_busy hb, cmdBegin_of_busy hb⟩
  | false =>
    cases hf : s.status.fault with
    | true => exact .inr (.inl ⟨rfl, rfl, cmdWrite_of_fault hb hf, cmdBegin_of_fault hb hf⟩)
    | false =>
      cases hd : decode w with
      | error r => exact .inr (.inr (.inl ⟨rfl, rfl, cmdWrite_of_illegal hb hf hd, cmdBegin_of_illegal hb hf hd⟩))
      | ok i => exact .inr (.inr (.inr ⟨i, rfl, rfl, rfl, cmdWrite_of_command hb hf hd, cmdBegin_of_command hb hf hd⟩))

/-! ### `IllegalCmd` (R154) -/

theorem decode_eq_error_of_not_accepted {w : Word} (h : ∀ r ∈ opcodeTable, r.accepts w = false) :
    ∃ r, decode w = .error r := by
  cases hd : decode w with
  | error r => exact ⟨r, rfl⟩
  | ok i =>
    obtain ⟨r, hr, hacc⟩ := (exists_accepts_iff w).mpr ((exists_decode_iff w).mp ⟨i, hd⟩)
    rw [h r hr] at hacc
    cases hacc

/-- `IllegalCmd` does not look at the snapshot (R154). -/
theorem illegal_setSnap (w : Word) (s : State) (n : Snapshot) : illegal w (s.setSnap n) = (illegal w s).setSnap n :=
  raiseFault_setSnap _ _ (clearReport s) n

theorem step_of_illegal {s : State} {e : Event} {w : Word} {rest : List Event} (he : IsCmdWrite e w)
    (hin : s.inputs = e :: rest) (hb : s.status.busy = false) (hf : s.status.fault = false)
    (hw : ∀ r ∈ opcodeTable, r.accepts w = false) : step s = .next (illegal w (s.setInputs rest)) := by
  obtain ⟨r, hd⟩ := decode_eq_error_of_not_accepted hw
  exact step_of_isCmdWrite he hin (cmdWrite_of_illegal hb hf hd) (cmdBegin_of_illegal hb hf hd)

theorem endsWithFault_illegal (w : Word) {s : State} (hf : s.status.fault = false) :
    EndsWithFault (illegal w s) 4 (w.extractLsb' 28 4) 7 (w.toNat % 65536) (w.toNat / 2 ^ 20 % 256) := by
  have hindex : field w 0 16 = w.toNat % 65536 := by simp [field_eq]
  have haux : field w 20 8 = w.toNat / 2 ^ 20 % 256 := field_eq w 20 8
  rw [← hindex, ← haux]
  exact endsWithFault_raiseFault (opField w) (illegalCmd w) (s := clearReport s) hf

/-- Settles O13: no row accepts the word, so it does not decode, and its fault is taken in the cleared state. -/
theorem illegalWordTakesIllegalCmd : Obligations.IllegalWordTakesIllegalCmd := by
  intro s e w rest he hin hb hf hw
  refine ⟨illegal w (s.setInputs rest), step_of_illegal he hin hb hf hw, endsWithFault_illegal w hf,
    keepsOutputs_raiseFault _ _ (clearReport (s.setInputs rest)),
    keepsOutside_raiseFault _ _ (clearReport (s.setInputs rest)),
    raiseFault_freeIndex _ _ (clearReport (s.setInputs rest)), fun n => ?_⟩
  rw [← illegal_setSnap]
  exact step_of_illegal (s := s.setSnap n) he hin hb hf hw

/-! ### `Overrun` (R155) -/

theorem keepsOutside_trans {s t u : State} (h : KeepsOutside s t) (h' : KeepsOutside t u) : KeepsOutside s u := by
  obtain ⟨hsnap, hok, hparams, hin, hread⟩ := h
  obtain ⟨hsnap', hok', hparams', hin', hread'⟩ := h'
  exact ⟨hsnap'.trans hsnap, hok'.trans hok, hparams'.trans hparams, hin'.trans hin, hread'.trans hread⟩

theorem keepsOutside_spoilDestination (i : Instr) (s : State) : KeepsOutside s (spoilDestination i s) := by
  obtain ⟨hsnap, hok, hparams, -, -, -, hin, hread⟩ := spoilDestination_frame i s
  exact ⟨hsnap, hok, hparams, hin, hread⟩

theorem spoilDestination_status (i : Instr) (s : State) : (spoilDestination i s).status = s.status := by
  obtain ⟨-, -, -, hstatus, -⟩ := spoilDestination_frame i s
  exact hstatus

/-- A surface is a destination of its own view's command only. -/
theorem spoilDestination_surface_other {i : Instr} {v : View} (h : viewOf i ≠ some v) (s : State) :
    (spoilDestination i s).surface v = s.surface v := by
  have hne : ∀ u, viewOf i = some u → v ≠ u := fun u hu hvu => h (hvu ▸ hu)
  cases i with
  | tile t fh fv x0 y0 => exact spoilTile_surface x0 y0 s v
  | resolve g p => exact spoilRgb_surface s v
  | pattern sel => exact spoilSurface_surface_other s (hne _ rfl)
  | nametable b => exact spoilSurface_surface_other s (hne _ rfl)
  | oamview => exact spoilSurface_surface_other s (hne _ rfl)
  | colors => exact spoilSurface_surface_other s (hne _ rfl)
  | palette => exact spoilSurface_surface_other s (hne _ rfl)

/-- `RGB` is the destination of `RESOLVE` only. -/
theorem spoilDestination_rgb {i : Instr} (h : ∀ g p, i ≠ .resolve g p) (s : State) :
    (spoilDestination i s).rgb = s.rgb := by
  cases i with
  | tile t fh fv x0 y0 => exact spoilTile_rgb x0 y0 s
  | resolve g p => exact absurd rfl (h g p)
  | _ => exact spoilSurface_rgb _ s

/-- A cell of `IX` is a destination only of a `TILE` whose square it lies in. -/
theorem spoilDestination_ix_other {i : Instr} {a : Nat}
    (h : ∀ n fh fv x0 y0, i = .tile n fh fv x0 y0 → ∀ c < 8, ∀ r < 8, a ≠ ixKey (x0 + c) (y0 + r)) (s : State) :
    (spoilDestination i s).ix.read a = s.ix.read a := by
  cases i with
  | tile n fh fv x0 y0 => exact spoilTile_ix_other (h n fh fv x0 y0 rfl)
  | resolve g p => exact congrArg (·.read a) (spoilRgb_ix s)
  | _ => exact congrArg (·.read a) (spoilSurface_ix _ s)

theorem step_of_overrun {s : State} {e : Event} {w w₀ : Word} {rest : List Event} {i : Instr} (he : IsCmdWrite e w)
    (hin : s.inputs = e :: rest) (hb : s.status.busy = true) (hl : s.latched = some w₀) (hd : decode w₀ = .ok i) :
    step s = .next (raiseFault (opField w) overrunInfo (spoilDestination i (s.setInputs rest))) := by
  rw [← overrun_of_latched (s := s.setInputs rest) hl hd]
  exact step_of_isCmdWrite he hin (cmdWrite_of_busy hb) (cmdBegin_of_busy hb)

theorem endsWithFault_overrun (w : Word) (i : Instr) {s : State} (hf : s.status.fault = false) :
    EndsWithFault (raiseFault (opField w) overrunInfo (spoilDestination i s)) 5 (w.extractLsb' 28 4) 0 0 0 :=
  endsWithFault_raiseFault (opField w) overrunInfo (by rw [spoilDestination_status, hf])

/-- Settles O14: both forms of the write spoil the destination of the command in flight and then take the fault. -/
theorem writeWhileBusyTakesOverrun : Obligations.WriteWhileBusyTakesOverrun := by
  intro s e w w₀ rest i he hin hb hf hl hd
  have hends := endsWithFault_overrun w i (s := s.setInputs rest) hf
  refine ⟨_, step_of_overrun he hin hb hl hd, hends, ?_,
    keepsOutside_trans (keepsOutside_spoilDestination i _) (keepsOutside_raiseFault _ _ _),
    fun v hv => ?_, fun hi => ?_, fun a ha => ?_⟩
  · obtain ⟨-, hfinfo, -⟩ := hends
    rw [hfinfo]; decide
  · rw [raiseFault_surface]; exact spoilDestination_surface_other hv _
  · rw [raiseFault_rgb]; exact spoilDestination_rgb hi _
  · rw [raiseFault_ix]; exact spoilDestination_ix_other ha _

/-! ### What a step can do to the report -/

/-- With no event to come a step is that of `finish` (log 18). -/
theorem step_eq_applyEvent (s : State) :
    step s = applyEvent (s.inputs.headD .finish) (s.setInputs s.inputs.tail) := by
  cases hin : s.inputs with
  | nil => exact (step_of_no_event hin).trans (congrArg finishCommand (setInputs_self hin).symm)
  | cons e rest => exact step_of_event hin

/-- What the last command reported stands unchanged. -/
def KeepsReport (s t : State) : Prop := t.status = s.status ∧ t.finfo = s.finfo

theorem keepsReport_of_hostRead {addr bytes : Nat} {s t : State} (h : hostRead addr bytes s = .next t) :
    KeepsReport s t := by
  obtain ⟨d, rfl | rfl⟩ := hostRead_next h <;> exact ⟨rfl, rfl⟩

theorem keepsReport_of_readOutput {w : Nat} {sp : Space} {m : Memory w} {inside : Bool} {a : Nat} {s t : State}
    (h : readOutput sp m inside a s = .next t) : KeepsReport s t := by
  obtain ⟨-, -, v, -, rfl⟩ := readOutput_next h
  exact ⟨rfl, rfl⟩

theorem keepsReport_of_provide {sp : Space} {inside : Bool} {a : Nat} {n : Snapshot} {s t : State}
    (h : provide sp inside a n s = .next t) : KeepsReport s t := by
  obtain ⟨-, -, rfl⟩ := provide_next h
  exact ⟨rfl, rfl⟩

/-- `STATUS` and `FINFO` change by a `CMD` write, by the end of a command, or by reset: every other move of an agent
leaves them alone (R47, R180). -/
theorem applyEvent_next {e : Event} {s t : State} (h : applyEvent e s = .next t) :
    KeepsReport s t ∨ (∃ w, cmdWrite w s = .next t ∨ cmdBegin w s = t) ∨ finishCommand s = .next t ∨
      (e = .rst ∧ t = resetBlock s) := by
  cases e with
  | cmd w => exact .inr (.inl ⟨w, .inl h⟩)
  | cmdBegin w => exact .inr (.inl ⟨w, .inr (Host.Outcome.next.inj h)⟩)
  | finish => exact .inr (.inr (.inl h))
  | rst => exact .inr (.inr (.inr ⟨rfl, (Host.Outcome.next.inj h).symm⟩))
  | hostWrite addr bytes v =>
    rcases hostWrite_next h with rfl | hcmd
    · exact .inl ⟨rfl, rfl⟩
    · exact .inr (.inl ⟨v, .inl hcmd⟩)
  | hostRead addr bytes => exact .inl (keepsReport_of_hostRead h)
  | readIx x y => exact .inl (keepsReport_of_readOutput h)
  | readSurface v a => exact .inl (keepsReport_of_readOutput h)
  | driveSurfOk v ok =>
    obtain rfl := Host.Outcome.next.inj h
    exact .inl ⟨rfl, rfl⟩
  | _ => exact .inl (keepsReport_of_provide h)

/-! ### While a fault stands (R160) -/

theorem keepsReport_of_fault {e : Event} {s t : State} (hf : s.status.fault = true) (hb : s.status.busy = false)
    (hl : s.latched = none) (he : e ≠ .rst) (h : applyEvent e s = .next t) : KeepsReport s t := by
  have hsame (hst : .next s = (.next t : Host.Outcome State Fault Refusal)) : KeepsReport s t :=
    Host.Outcome.next.inj hst ▸ ⟨rfl, rfl⟩
  rcases applyEvent_next h with hkeeps | ⟨w, hw | hw⟩ | hfinish | ⟨hrst, -⟩
  · exact hkeeps
  · exact hsame ((cmdWrite_of_fault hb hf).symm.trans hw)
  · exact hsame (congrArg _ ((cmdBegin_of_fault hb hf).symm.trans hw))
  · exact hsame ((finishCommand_of_idle hl).symm.trans hfinish)
  · exact absurd hrst he

/-- Settles O15: a `CMD` write ends at the test of `FAULT`, and with no command in flight nothing else reports. -/
theorem faultStandsUntilReset : Obligations.FaultStandsUntilReset := by
  intro s hf hb hl
  refine ⟨fun e w rest he hin => step_of_isCmdWrite he hin (cmdWrite_of_fault hb hf) (cmdBegin_of_fault hb hf),
    fun t hrst ht => ?_⟩
  have hne : s.inputs.headD .finish ≠ .rst := by
    cases hin : s.inputs with
    | nil => exact Event.noConfusion
    | cons e rest => exact fun he => hrst (by rw [hin, ← he]; rfl)
  rw [step_eq_applyEvent] at ht
  exact keepsReport_of_fault (s := s.setInputs s.inputs.tail) hf hb hl hne ht

/-! ### The code of `Invariant` (R153) -/

theorem causeCode_ne_three {c : Cause} (h : c ≠ .invariant) : c.code ≠ 3#4 := by
  cases c with
  | invariant => exact absurd rfl h
  | _ => decide

theorem raiseFault_code_ne_three {op : Nibble} {f : FaultInfo} {s : State} (hcause : f.cause ≠ .invariant)
    (hs : s.status.code ≠ 3#4) : (raiseFault op f s).status.code ≠ 3#4 := by
  cases hf : s.status.fault with
  | true => rwa [raiseFault_of_fault hf]
  | false => rw [raiseFault_status hf]; exact causeCode_ne_three hcause

theorem raiseSurfaceError_code_ne_three (op : Nibble) (v : View) (s : State) :
    (raiseSurfaceError op v s).status.code ≠ 3#4 := by
  rw [raiseSurfaceError_status, Status.surfaceErred_code]; decide

theorem acceptCommand_code_ne_three (w : Word) (s : State) : (acceptCommand w s).status.code ≠ 3#4 := by
  rw [acceptCommand_status, Status.started_code, Status.cleared_code]; decide

theorem illegal_code_ne_three (w : Word) (s : State) : (illegal w s).status.code ≠ 3#4 :=
  raiseFault_code_ne_three Cause.noConfusion (by rw [clearReport_status, Status.cleared_code]; decide)

theorem overrun_code_ne_three {s : State} (w : Word) (hs : s.status.code ≠ 3#4) : (overrun w s).status.code ≠ 3#4 := by
  refine raiseFault_code_ne_three Cause.noConfusion ?_
  split
  · exact hs
  · split
    · rwa [spoilDestination_status]
    · exact hs

/-- How the body of a command ends: normally, or with an `OutOfRange` (R151, R158 step 8). -/
theorem bodyOf_next {i : Instr} {s t : State} (h : bodyOf i s = .next t) :
    t.status = s.status.completed ∨
      ∃ op f u, f.cause = .outOfRange ∧ u.status = s.status ∧ t = raiseFault op f u := by
  cases hv : viewOf i with
  | some v =>
    rcases bodyOf_view_next hv h with ⟨-, rfl⟩ | ⟨f, hcause, -, rfl⟩
    · exact .inl rfl
    · exact .inr ⟨_, f, spoilSurface v s, hcause, rfl, rfl⟩
  | none =>
    cases i with
    | tile n fh fv x0 y0 =>
      rcases tileBody_next h with ⟨-, -, rfl⟩ | ⟨f, hcause, rfl⟩
      · exact .inl rfl
      · exact .inr ⟨_, f, s, hcause, rfl, rfl⟩
    | resolve g p =>
      rcases resolveBody_next h with ⟨c, -, rfl⟩ | ⟨f, hcause, -, rfl⟩
      · exact .inl rfl
      · exact .inr ⟨_, f, s, hcause, rfl, rfl⟩
    | _ => cases hv

theorem bodyOf_next_code_ne_three {i : Instr} {s t : State} (hs : s.status.code ≠ 3#4) (h : bodyOf i s = .next t) :
    t.status.code ≠ 3#4 := by
  rcases bodyOf_next h with hstatus | ⟨op, f, u, hcause, hstatus, rfl⟩
  · rwa [hstatus]
  · exact raiseFault_code_ne_three (by rw [hcause]; exact Cause.noConfusion) (by rwa [hstatus])

theorem exec_next_code_ne_three {i : Instr} {s t : State} (hs : s.status.code ≠ 3#4) (h : exec i s = .next t) :
    t.status.code ≠ 3#4 := by
  rcases exec_next h with ⟨v, -, -, rfl⟩ | ⟨-, hbody⟩
  · exact raiseSurfaceError_code_ne_three _ v s
  · exact bodyOf_next_code_ne_three hs hbody

theorem sampleSurface_code_ne_three {i : Instr} {s : State} (hs : s.status.code ≠ 3#4) :
    (sampleSurface i s).status.code ≠ 3#4 := by
  unfold sampleSurface
  split
  · exact hs
  · split
    · exact hs
    · exact raiseSurfaceError_code_ne_three _ _ s

/-- Both forms of a `CMD` write (R158). -/
theorem cmdWrite_next_code_ne_three {w : Word} {s t : State} (hs : s.status.code ≠ 3#4)
    (h : cmdWrite w s = .next t ∨ cmdBegin w s = t) : t.status.code ≠ 3#4 := by
  rcases cmdWrite_cases w s with ⟨-, hw, hb⟩ | ⟨-, -, hw, hb⟩ | ⟨-, -, hw, hb⟩ | ⟨i, -, -, -, hw, hb⟩ <;>
    rw [hw, hb] at h
  · obtain rfl : overrun w s = t := h.elim Host.Outcome.next.inj id
    exact overrun_code_ne_three w hs
  · obtain rfl : s = t := h.elim Host.Outcome.next.inj id
    exact hs
  · obtain rfl : illegal w s = t := h.elim Host.Outcome.next.inj id
    exact illegal_code_ne_three w s
  · rcases h with hexec | rfl
    · exact exec_next_code_ne_three (acceptCommand_code_ne_three w s) hexec
    · exact sampleSurface_code_ne_three (acceptCommand_code_ne_three w s)

theorem finishCommand_next_code_ne_three {s t : State} (hs : s.status.code ≠ 3#4) (h : finishCommand s = .next t) :
    t.status.code ≠ 3#4 := by
  unfold finishCommand at h
  split at h
  · exact Host.Outcome.next.inj h ▸ hs
  · split at h
    · exact Host.Outcome.next.inj h ▸ illegal_code_ne_three _ s
    · exact bodyOf_next_code_ne_three hs h

theorem applyEvent_next_code_ne_three {e : Event} {s t : State} (hs : s.status.code ≠ 3#4)
    (h : applyEvent e s = .next t) : t.status.code ≠ 3#4 := by
  rcases applyEvent_next h with ⟨hstatus, -⟩ | ⟨w, hw⟩ | hfinish | ⟨-, rfl⟩
  · rwa [hstatus]
  · exact cmdWrite_next_code_ne_three hs hw
  · exact finishCommand_next_code_ne_three hs hfinish
  · rw [resetBlock_status]; decide

/-- Settles O50: every fault an evaluation raises is `OutOfRange`, and the shell raises `IllegalCmd` and `Overrun` only. -/
theorem invariantCodeIsNeverRecorded : Obligations.InvariantCodeIsNeverRecorded := fun s _ h hs =>
  applyEvent_next_code_ne_three (s := s.setInputs s.inputs.tail) hs ((step_eq_applyEvent s).symm.trans h)

end Sys2Proof
end

section
/-!
PROOFS. `decode` and `encode` undo each other (R62 to R68, R72), and words of the spec's table decode to the
instructions it names.
-/

namespace Sys2Proof

/-! ### Every word that decodes is an encoding -/

theorem wellFormed_tile_iff {t x0 y0 : Nat} {h v : Bool} :
    (Instr.tile t h v x0 y0).wellFormed = true ↔ t < 512 ∧ x0 < 256 ∧ y0 < 256 := by
  simp [Instr.wellFormed, and_assoc]

theorem wellFormed_resolve_iff {g p : Nat} : (Instr.resolve g p).wellFormed = true ↔ g < 8 ∧ p < 4 := by
  simp [Instr.wellFormed]

/-- A word is the encoding of a well-formed instruction when its opcode is the instruction's and its other bits are the
operands'. -/
theorem encode_eq_of_fields {w : Word} {i : Instr} (hwf : i.wellFormed = true) (hop : opField w = i.opcode)
    (hbits : w.toNat % 2 ^ 28 = i.operandBits) : encode i = w := by
  rw [opField_eq_iff] at hop
  apply BitVec.eq_of_toNat_eq
  rw [encode_toNat hwf, ← hop, ← hbits, Nat.div_add_mod']

theorem beq_one_toNat {n : Nat} (h : n < 2) : (n == 1).toNat = n := by
  obtain rfl | rfl : n = 0 ∨ n = 1 := by omega
  · rfl
  · rfl

/-- A command without operands has no other bit than the opcode's (R66). -/
theorem mod_eq_zero_of_reserved {w : Word} (h : field w 0 28 = 0) : w.toNat % 2 ^ 28 = 0 := by
  rwa [field_eq, pow_zero, Nat.div_one] at h

/-- In each format the operands and the reserved zeros are all the bits below the opcode. -/
theorem fields_of_decode {w : Word} {i : Instr} (h : decode w = .ok i) :
    i.wellFormed = true ∧ opField w = i.opcode ∧ w.toNat % 2 ^ 28 = i.operandBits := by
  have hsome : (decode w).toOption = some i := by rw [h]; rfl
  rw [toOption_decode] at hsome
  split_ifs at hsome with htile hresolve hpattern hnametable hoamview hcolors hpalette <;>
    obtain rfl := Option.some.inj hsome
  · obtain ⟨hop, hres⟩ := htile
    refine ⟨wellFormed_tile_iff.mpr ⟨field_lt w 0 9, field_lt w 11 8, field_lt w 19 8⟩, hop, ?_⟩
    simp only [Instr.operandBits, beq_one_toNat (field_lt w _ 1)]
    simp only [field_eq] at hres ⊢
    omega
  · obtain ⟨hop, hres⟩ := hresolve
    refine ⟨wellFormed_resolve_iff.mpr ⟨field_lt w 2 3, field_lt w 0 2⟩, hop, ?_⟩
    simp only [Instr.operandBits, field_eq] at hres ⊢
    omega
  · obtain ⟨hop, hres⟩ := hpattern
    refine ⟨decide_eq_true (field_lt w 0 1), hop, ?_⟩
    simp only [Instr.operandBits, field_eq] at hres ⊢
    omega
  · obtain ⟨hop, hres⟩ := hnametable
    refine ⟨decide_eq_true (field_lt w 0 2), hop, ?_⟩
    simp only [Instr.operandBits, field_eq] at hres ⊢
    omega
  · obtain ⟨hop, hres⟩ := hoamview
    exact ⟨rfl, hop, mod_eq_zero_of_reserved hres⟩
  · obtain ⟨hop, hres⟩ := hcolors
    exact ⟨rfl, hop, mod_eq_zero_of_reserved hres⟩
  · obtain ⟨hop, hres⟩ := hpalette
    exact ⟨rfl, hop, mod_eq_zero_of_reserved hres⟩

/-- A word carries the opcode of the instruction it decodes to (R60, R61). -/
theorem opField_of_decode {w : Word} {i : Instr} (h : decode w = .ok i) : opField w = i.opcode := by
  obtain ⟨-, hop, -⟩ := fields_of_decode h
  exact hop

/-- Settles O5: the opcode and the operands of the instruction are all the bits of the word. -/
theorem encodeInvertsDecode : Obligations.EncodeInvertsDecode := by
  intro w i h
  obtain ⟨hwf, hop, hbits⟩ := fields_of_decode h
  exact ⟨hwf, encode_eq_of_fields hwf hop hbits⟩

/-! ### Every encoding decodes -/

/-- A field below the opcode is one of the operand bits. -/
theorem field_encode {i : Instr} (h : i.wellFormed = true) {lo n x : Nat} (hle : lo + n ≤ 28)
    (hx : i.operandBits / 2 ^ lo % 2 ^ n = x) : field (encode i) lo n = x := by
  obtain ⟨k, hk⟩ := Nat.exists_eq_add_of_le hle
  have hsplit : i.opcode.toNat * 2 ^ 28 + i.operandBits =
      i.operandBits + 2 ^ lo * (2 ^ n * (2 ^ k * i.opcode.toNat)) := by
    rw [hk, pow_add, pow_add]; ring
  rw [field_eq, encode_toNat h, hsplit, Nat.add_mul_div_left _ _ (Nat.two_pow_pos lo), Nat.add_mul_mod_self_left, hx]

theorem decode_encode_tile {t x0 y0 : Nat} {h v : Bool} (hwf : (Instr.tile t h v x0 y0).wellFormed = true) :
    decode (encode (.tile t h v x0 y0)) = .ok (.tile t h v x0 y0) := by
  obtain ⟨ht, hx, hy⟩ := wellFormed_tile_iff.mp hwf
  have hh := h.toNat_lt
  have hv := v.toNat_lt
  have hT : field (encode (.tile t h v x0 y0)) 0 9 = t :=
    field_encode hwf (by decide) (by simp only [Instr.operandBits]; omega)
  have hH : field (encode (.tile t h v x0 y0)) 9 1 = h.toNat :=
    field_encode hwf (by decide) (by simp only [Instr.operandBits]; omega)
  have hV : field (encode (.tile t h v x0 y0)) 10 1 = v.toNat :=
    field_encode hwf (by decide) (by simp only [Instr.operandBits]; omega)
  have hX : field (encode (.tile t h v x0 y0)) 11 8 = x0 :=
    field_encode hwf (by decide) (by simp only [Instr.operandBits]; omega)
  have hY : field (encode (.tile t h v x0 y0)) 19 8 = y0 :=
    field_encode hwf (by decide) (by simp only [Instr.operandBits]; omega)
  have hres : field (encode (.tile t h v x0 y0)) 27 1 = 0 :=
    field_encode hwf (by decide) (by simp only [Instr.operandBits]; omega)
  rw [decode, opField_encode hwf, hT, hH, hV, hX, hY, hres, Bool.toNat_beq_one, Bool.toNat_beq_one]
  rfl

theorem decode_encode_resolve {g p : Nat} (hwf : (Instr.resolve g p).wellFormed = true) :
    decode (encode (.resolve g p)) = .ok (.resolve g p) := by
  obtain ⟨hg8, hp4⟩ := wellFormed_resolve_iff.mp hwf
  have hg : field (encode (.resolve g p)) 2 3 = g :=
    field_encode hwf (by decide) (by simp only [Instr.operandBits]; omega)
  have hp : field (encode (.resolve g p)) 0 2 = p :=
    field_encode hwf (by decide) (by simp only [Instr.operandBits]; omega)
  have hres : field (encode (.resolve g p)) 5 23 = 0 :=
    field_encode hwf (by decide) (by simp only [Instr.operandBits]; omega)
  rw [decode, opField_encode hwf, hg, hp, hres]
  rfl

theorem decode_encode_pattern {sel : Nat} (hwf : (Instr.pattern sel).wellFormed = true) :
    decode (encode (.pattern sel)) = .ok (.pattern sel) := by
  have hbound : sel < 2 := of_decide_eq_true hwf
  have hsel : field (encode (.pattern sel)) 0 1 = sel :=
    field_encode hwf (by decide) (by simp only [Instr.operandBits]; omega)
  have hres : field (encode (.pattern sel)) 1 27 = 0 :=
    field_encode hwf (by decide) (by simp only [Instr.operandBits]; omega)
  rw [decode, opField_encode hwf, hsel, hres]
  rfl

theorem decode_encode_nametable {b : Nat} (hwf : (Instr.nametable b).wellFormed = true) :
    decode (encode (.nametable b)) = .ok (.nametable b) := by
  have hbound : b < 4 := of_decide_eq_true hwf
  have hb : field (encode (.nametable b)) 0 2 = b :=
    field_encode hwf (by decide) (by simp only [Instr.operandBits]; omega)
  have hres : field (encode (.nametable b)) 2 26 = 0 :=
    field_encode hwf (by decide) (by simp only [Instr.operandBits]; omega)
  rw [decode, opField_encode hwf, hb, hres]
  rfl

/-- Settles O4: the opcode selects the instruction's own format, whose fields hold the operands and whose reserved bits
are 0. The three commands without operands have one word each. -/
theorem decodeInvertsEncode : Obligations.DecodeInvertsEncode := by
  intro i hwf
  cases i with
  | tile t h v x0 y0 => exact decode_encode_tile hwf
  | resolve g p => exact decode_encode_resolve hwf
  | pattern sel => exact decode_encode_pattern hwf
  | nametable b => exact decode_encode_nametable hwf
  | oamview => decide
  | colors => decide
  | palette => decide

/-- Settles O8: the eight command words are the encodings of the instructions the table names. -/
theorem writtenOutWordsDecode : Obligations.WrittenOutWordsDecode :=
  ⟨decodeInvertsEncode (.tile 0x105 true false 16 8) rfl, decodeInvertsEncode (.tile 511 true true 248 232) rfl,
    decodeInvertsEncode (.resolve 5 2) rfl, decodeInvertsEncode (.pattern 1) rfl,
    decodeInvertsEncode (.nametable 3) rfl, decodeInvertsEncode .oamview rfl, decodeInvertsEncode .colors rfl,
    decodeInvertsEncode .palette rfl, by decide, by decide⟩

end Sys2Proof
end

section
/-!
PROOFS. `TILE` inside `IX` (R84), `RESOLVE` (R92 to R95), and the Colors and Palette views (R135 to R138).
-/

namespace Sys2Proof

open Machine Claims

/-! ### `TILE` inside `IX` -/

theorem tileFits_eq_true {x0 y0 : Nat} (hx : x0 ≤ 248) (hy : y0 ≤ 232) : tileFits x0 y0 = true := by
  simp [tileFits, hx, hy]

/-- The two bytes of a row of a tile are among its 16 bytes, so a written tile has a value at every pixel. -/
theorem exists_tilePix_of_written {s : State} {n r : Nat} (hn : n < 512) (hr : r < 8)
    (hchr : ∀ k < 16, ∃ b, s.snap.chr.read (16 * n + k) = some b) (c : Nat) : ∃ p, tilePix s n r c = .ok p := by
  obtain ⟨p0, h0⟩ := hchr r (by omega)
  obtain ⟨p1, h1⟩ := hchr (8 + r) (by omega)
  rw [← Nat.add_assoc] at h1
  exact ⟨_, tilePix_eq_ok_iff.mpr ⟨p0, p1, (readChr_eq_ok_iff (by unfold plane0Addr; omega)).mpr h0,
    (readChr_eq_ok_iff (by unfold plane1Addr; omega)).mpr h1, rfl⟩⟩

/-- A square inside `IX` whose pixels all have a value is written, and the command completes (R84). -/
theorem exec_tile_of_pixels {t x0 y0 : Nat} {h v : Bool} {s : State} (hfit : tileFits x0 y0 = true)
    (hgrid : ∀ c < 8, ∀ r < 8, ∃ p, tileGrid s t h v r c = .ok p) :
    exec (.tile t h v x0 y0) s =
      .next (complete (s.setIx (writeSquare s.ix x0 y0 fun c r => pixelValue (tileGrid s t h v r c)))) := by
  have hstop : firstStop 8 8 (fun c r => tileGrid s t h v r c) = none := firstStop_eq_none.mpr hgrid
  rw [exec_no_view rfl, bodyOf, tileBody, if_pos hfit]
  simp only [hstop]

theorem endsNormally_complete_setIx (s : State) (m : Memory 2) : EndsNormally s (complete (s.setIx m)) :=
  ⟨rfl, rfl, rfl, rfl⟩

theorem keepsOutside_complete_setIx (s : State) (m : Memory 2) : KeepsOutside s (complete (s.setIx m)) :=
  ⟨rfl, rfl, rfl, rfl, rfl⟩

theorem keepsOthers_complete_setIx (s : State) (m : Memory 2) :
    (complete (s.setIx m)).rgb = s.rgb ∧ ∀ u, (complete (s.setIx m)).surface u = s.surface u :=
  ⟨rfl, fun _ => rfl⟩

/-- Settles O16: every pixel of a written tile has a value, so the square is written whole and nothing else is. -/
theorem tileWritesItsSquare : Obligations.TileWritesItsSquare := by
  intro n h v x0 y0 s hwf hx hy hchr
  obtain ⟨hn, -, -⟩ := wellFormed_tile_iff.mp hwf
  have hgrid : ∀ c < 8, ∀ r < 8, ∃ p, tileGrid s n h v r c = .ok p := fun c _ r hr =>
    exists_tilePix_of_written hn (reverseIf_lt v hr) hchr _
  refine ⟨_, exec_tile_of_pixels (tileFits_eq_true hx hy) hgrid, fun r hr c hc => ?_, fun a ha => ?_,
    endsNormally_complete_setIx s _, keepsOutside_complete_setIx s _, keepsOthers_complete_setIx s _⟩
  · obtain ⟨p, hp⟩ := hgrid c hc r hr
    refine ⟨p, ?_, (pixelBitsComeFromThePlanes s n _ _ p hn (reverseIf_lt v hr) (reverseIf_lt h hc)).mp hp⟩
    rw [complete_ix, State.setIx_ix, ← ixKey, read_writeSquare hc hr, hp, pixelValue_ok]
  · rw [complete_ix, State.setIx_ix, read_writeSquare_other fun c hc r hr => ha r hr c hc]

/-! ### `RESOLVE` -/

theorem exec_resolve_of_ok {g p : Nat} {s : State} {c : Rgb} (h : resolve s g p = .ok c) :
    exec (.resolve g p) s = .next (complete (s.setRgb (c.setWidth 32))) := by
  rw [exec_no_view rfl, bodyOf, resolveBody, h]

theorem exec_resolve_of_fault {g p : Nat} {s : State} {f : FaultInfo} (h : resolve s g p = .error (.fault f)) :
    exec (.resolve g p) s = .next (raiseFault opResolve f s) := by
  rw [exec_no_view rfl, bodyOf, resolveBody, h]; rfl

/-- Settles O21: the byte at the pair's address names the colour, so the resolver evaluates to it. -/
theorem resolveLeavesTheColour : Obligations.ResolveLeavesTheColour := by
  intro g p s c hwf hcolour
  obtain ⟨hg, hp⟩ := wellFormed_resolve_iff.mp hwf
  have hres : resolve s g p = .ok c := (paletteColour_eq_ok_iff (palAddr_lt hg hp)).mpr hcolour
  exact ⟨_, exec_resolve_of_ok hres, rfl, ⟨rfl, rfl, rfl, rfl⟩, ⟨rfl, rfl, rfl, rfl, rfl⟩, rfl, fun _ => rfl⟩

/-- Settles O22: the resolver's fault is that of the byte's check, raised in the state the command began in. -/
theorem resolveOfABadByteFaults : Obligations.ResolveOfABadByteFaults := by
  intro g p s k hwf hf hbad
  obtain ⟨hg, hp⟩ := wellFormed_resolve_iff.mp hwf
  have hres : resolve s g p = .error (.fault (outOfRange .ct k.toNat (palAddr g p))) :=
    paletteColour_of_badByte (palAddr_lt hg hp) hbad
  exact ⟨_, exec_resolve_of_fault hres, endsWithFault_raiseFault _ _ hf, keepsOutputs_raiseFault _ _ s,
    keepsOutside_raiseFault _ _ s, raiseFault_freeIndex _ _ s⟩

/-- Settles O23: the group takes part in a resolution through the address only, and pixel value 0 has one address. -/
theorem pixelZeroIgnoresTheGroup : Obligations.PixelZeroIgnoresTheGroup := by
  intro g g' s
  have hres : resolve s g 0 = resolve s g' 0 := by rw [resolve, resolve, palAddr_zero, palAddr_zero]
  rw [exec_no_view rfl, exec_no_view rfl, bodyOf, bodyOf, resolveBody, resolveBody, hres]

/-! ### The Colors and Palette views -/

/-- The Colors view reads the entry of the pixel and nothing else (R135). -/
theorem colorsPix_eq_ok_iff {s : State} {x y : Nat} {c : Rgb} (hx : x < 16) (hy : y < 4) :
    colorsPix s x y = .ok c ↔ ColorsPixelIs s x y c := by
  have hlt : 16 * y + x < 64 := by omega
  simp only [colorsPix, bind_eq_ok, pure_eq_ok, Except.ok.injEq, readCt_eq_ok_iff, hlt, true_and, ColorsPixelIs,
    entryRgb, eq_comm (a := c)]

/-- Settles O27: `COLORS` is a view command, and its pixel function computes the table's colours. -/
theorem colorsRendersTheTable : Obligations.ColorsRendersTheTable :=
  rendersView_of_pixels (i := .colors) (v := .colors) rfl fun _ _ hx _ hy _ => (colorsPix_eq_ok_iff hx hy).mpr

theorem paletteAddr_lt {x y : Nat} (hx : x < 16) (hy : y < 2) : paletteAddr (16 * y + x) < 32 := by
  unfold paletteAddr; split <;> omega

/-- The Palette view's pixel function computes exactly the colours of R137. -/
theorem palettePix_eq_ok_iff {s : State} {x y : Nat} {c : Rgb} (hx : x < 16) (hy : y < 2) :
    palettePix s x y = .ok c ↔ PalettePixelIs s x y c :=
  paletteColour_eq_ok_iff (paletteAddr_lt hx hy)

/-- Settles O28: `PALETTE` is a view command, and its pixel function computes the colours of palette RAM. -/
theorem paletteRendersPaletteRam : Obligations.PaletteRendersPaletteRam :=
  rendersView_of_pixels (i := .palette) (v := .palette) rfl fun _ _ hx _ hy _ => (palettePix_eq_ok_iff hx hy).mpr

/-- Settles O31: every pixel takes its colour from its entry's byte, so the first bad byte is the first stop. -/
theorem paletteFaultsAtItsFirstBadByte : Obligations.PaletteFaultsAtItsFirstBadByte :=
  faultsAtFirstBadByte_of_pixels (i := .palette) (v := .palette) rfl
    (fun _ _ hx _ hy _ => (palettePix_eq_ok_iff hx hy).mpr) fun _ _ hx _ hy _ ha =>
      ha ▸ ⟨paletteAddr_lt hx hy, rfl⟩

/-- The mirroring of R137 is the address rule of R90. -/
theorem paletteViewAddr_eq_palAddr (n : Nat) : paletteViewAddr n = palAddr (n / 4) (n % 4) := by
  unfold paletteViewAddr palAddr
  split
  · rfl
  · exact (Nat.div_add_mod n 4).symm

/-- Settles O32: the view and the resolver read the same palette byte. -/
theorem paletteViewResolvesEachEntry : Obligations.PaletteViewResolvesEachEntry := by
  intro s x _ y _
  rw [palettePix, paletteViewAddr_eq_palAddr, resolve]

end Sys2Proof
end

section
/-!
PROOFS. The moves of the host, the Provider and the Sink (R22 to R27, R46, R47, R51, R180), and reset (R33, R170).
-/

namespace Sys2Proof

open Machine Claims

/-! ### The register window (R27, R46) -/

theorem registerOffset_of_mem (s : State) {off : Nat} (h : off ∈ [0x0, 0x4, 0x8, 0xC]) :
    registerOffset s (s.params.regBase + off) 4 = some off := by
  rw [registerOffset, Nat.add_sub_cancel_left, if_pos ⟨Nat.le_add_right _ _, h, rfl⟩]

/-- No register is narrower or wider than 4 bytes or lies at an offset that is no multiple of 4. -/
theorem registerOffset_eq_none {s : State} {off bytes : Nat} (h : bytes ≠ 4 ∨ off % 4 ≠ 0) :
    registerOffset s (s.params.regBase + off) bytes = none := by
  have haligned : ∀ o ∈ [0x0, 0x4, 0x8, 0xC], o % 4 = 0 := by decide
  rw [registerOffset, Nat.add_sub_cancel_left, if_neg]
  rintro ⟨-, hoff, hbytes⟩
  exact h.elim (absurd hbytes) (absurd (haligned off hoff))

/-- What a host read of a register does, in flight or not. -/
theorem step_hostRead (s : State) (rest : List Event) {off : Nat} (h : off ∈ [0x0, 0x4, 0x8, 0xC]) :
    step (s.setInputs (.hostRead (s.params.regBase + off) 4 :: rest)) =
      .next ((afterRegisterRead (s.setInputs rest) off).setReadData (readRegister (s.setInputs rest) off)) := by
  rw [step_setInputs, applyEvent, hostRead, ← State.setInputs_params s rest, registerOffset_of_mem _ h]

/-- Only `RGB` in flight draws a free value. -/
theorem afterRegisterRead_of_ne {s : State} {off : Nat} (h : off ≠ 0x8) : afterRegisterRead s off = s :=
  if_neg fun ⟨hoff, _⟩ => h hoff

theorem afterRegisterRead_of_idle {s : State} (h : s.status.busy = false) (off : Nat) : afterRegisterRead s off = s :=
  if_neg fun ⟨_, hbusy⟩ => Bool.false_ne_true (h.symm.trans hbusy)

theorem step_hostRead_of_ne (s : State) (rest : List Event) {off : Nat} (h : off ∈ [0x0, 0x4, 0x8, 0xC])
    (hne : off ≠ 0x8) : step (s.setInputs (.hostRead (s.params.regBase + off) 4 :: rest)) =
      .next ((s.setInputs rest).setReadData (readRegister (s.setInputs rest) off)) := by
  rw [step_hostRead s rest h, afterRegisterRead_of_ne hne]

theorem step_hostWrite (s : State) (rest : List Event) (off bytes : Nat) (v : Word) :
    step (s.setInputs (.hostWrite (s.params.regBase + off) bytes v :: rest)) =
      hostWrite ((s.setInputs rest).params.regBase + off) bytes v (s.setInputs rest) := rfl

/-- Settles O42: the window's first register is `CMD`. -/
theorem cmdRegisterIssuesAndReadsZero : Obligations.CmdRegisterIssuesAndReadsZero := by
  intro s w rest
  refine ⟨?_, step_hostRead_of_ne s rest (off := 0) (by decide) (by decide)⟩
  rw [← Nat.add_zero s.params.regBase, step_hostWrite, hostWrite, registerOffset_of_mem _ (by decide)]
  rfl

/-- Settles O44: with no command in flight no read draws a free value, and each register returns what it holds. -/
theorem hostReadsTheRegisters : Obligations.HostReadsTheRegisters := by
  intro s rest off v hb hmem
  have hidle : (s.setInputs rest).status.busy = false := hb
  simp only [List.mem_cons, Prod.mk.injEq, List.not_mem_nil, or_false] at hmem
  rcases hmem with ⟨rfl, rfl⟩ | ⟨rfl, rfl⟩ | ⟨rfl, rfl⟩ | ⟨rfl, rfl⟩ <;>
    rw [step_hostRead s rest (by decide), afterRegisterRead_of_idle hidle]
  · rfl
  · rfl
  · simp only [readRegister, hidle]; rfl
  · rfl

/-- Settles O54: in flight only the read of `RGB` differs from one without a command in flight. -/
theorem registersCanBeReadInFlight : Obligations.RegistersCanBeReadInFlight := by
  intro s rest hb
  have hbusy : (s.setInputs rest).status.busy = true := hb
  refine ⟨step_hostRead_of_ne s rest (off := 0) (by decide) (by decide),
    step_hostRead_of_ne s rest (off := 4) (by decide) (by decide), ⟨Config.freeRgb s.freeIndex, ?_⟩,
    step_hostRead_of_ne s rest (off := 12) (by decide) (by decide)⟩
  rw [step_hostRead s rest (by decide), afterRegisterRead, if_pos ⟨rfl, hbusy⟩]
  simp only [readRegister, hbusy]
  rfl

/-- Settles O45: such an access has no offset in the window. -/
theorem otherRegisterAccessesAreRefused : Obligations.OtherRegisterAccessesAreRefused := by
  intro s rest off bytes v h
  have hnone := registerOffset_eq_none (s := s.setInputs rest) h
  exact ⟨by rw [step_setInputs, applyEvent, hostRead, ← State.setInputs_params s rest, hnone],
    by rw [step_hostWrite, hostWrite, hnone]; rfl⟩

/-! ### The words of `STATUS` and `FINFO` (R23, R26) -/

theorem Status.word_toNat (st : Status) : st.word.toNat =
    st.busy.toNat + 2 * st.done.toNat + 4 * st.fault.toNat + 8 * st.surf.toNat + 16 * st.code.toNat +
      256 * st.op.toNat := by
  have := st.busy.toNat_lt; have := st.done.toNat_lt; have := st.fault.toNat_lt; have := st.surf.toNat_lt
  have := st.code.isLt; have := st.op.isLt
  rw [Status.word, BitVec.toNat_ofNat, Nat.mod_eq_of_lt (by omega)]

theorem FInfo.word_toNat (f : FInfo) :
    f.word.toNat = f.index.toNat + 65536 * f.space.toNat + 1048576 * f.aux.toNat := by
  have := f.index.isLt; have := f.space.isLt; have := f.aux.isLt
  rw [FInfo.word, BitVec.toNat_ofNat, Nat.mod_eq_of_lt (by omega)]

theorem getLsbD_eq_of_field {w : Word} {i : Nat} {b : Bool} (h : field w i 1 = b.toNat) : w.getLsbD i = b := by
  rw [← field_one_beq_one, h, Bool.toNat_beq_one]

theorem extractLsb'_eq_of_field {w : Word} {lo n : Nat} {x : BitVec n} (h : field w lo n = x.toNat) :
    w.extractLsb' lo n = x := BitVec.eq_of_toNat_eq h

theorem status_word_fields (st : Status) :
    field st.word 0 1 = st.busy.toNat ∧ field st.word 1 1 = st.done.toNat ∧ field st.word 2 1 = st.fault.toNat ∧
    field st.word 3 1 = st.surf.toNat ∧ field st.word 4 4 = st.code.toNat ∧ field st.word 8 4 = st.op.toNat ∧
    field st.word 12 20 = 0 := by
  have := st.busy.toNat_lt; have := st.done.toNat_lt; have := st.fault.toNat_lt; have := st.surf.toNat_lt
  have := st.code.isLt; have := st.op.isLt
  simp only [field_eq, Status.word_toNat]
  omega

theorem finfo_word_fields (f : FInfo) :
    field f.word 0 16 = f.index.toNat ∧ field f.word 16 4 = f.space.toNat ∧ field f.word 20 8 = f.aux.toNat ∧
    field f.word 28 4 = 0 := by
  have := f.index.isLt; have := f.space.isLt; have := f.aux.isLt
  simp only [field_eq, FInfo.word_toNat]
  omega

/-- Settles O43: the fields lie side by side in the two words, and offset 4 of the window is not `CMD`. -/
theorem statusAndFinfoWords : Obligations.StatusAndFinfoWords := by
  refine ⟨fun st => ?_, fun f => ?_, fun s w rest => ?_⟩
  · obtain ⟨hbusy, hdone, hfault, hsurf, hcode, hop, hzero⟩ := status_word_fields st
    exact ⟨getLsbD_eq_of_field hbusy, getLsbD_eq_of_field hdone, getLsbD_eq_of_field hfault, getLsbD_eq_of_field hsurf,
      extractLsb'_eq_of_field hcode, extractLsb'_eq_of_field hop, extractLsb'_eq_of_field hzero⟩
  · obtain ⟨hindex, hspace, haux, hzero⟩ := finfo_word_fields f
    exact ⟨extractLsb'_eq_of_field hindex, extractLsb'_eq_of_field hspace, extractLsb'_eq_of_field haux,
      extractLsb'_eq_of_field hzero⟩
  · rw [step_hostWrite, hostWrite, registerOffset_of_mem _ (by decide)]
    rfl

/-! ### Reads of the output spaces (R34, R51) -/

theorem readOutput_of_busy {w : Nat} {sp : Space} {m : Memory w} {inside : Bool} {a : Nat} {s : State}
    (h : s.status.busy = true) : readOutput sp m inside a s = .refused .outputReadWhileBusy := by
  rw [readOutput, if_pos h]

theorem readOutput_of_some {w : Nat} {sp : Space} {m : Memory w} {inside : Bool} {a : Nat} {s : State} {v : BitVec w}
    (hb : s.status.busy = false) (hin : inside = true) (h : m.read a = some v) :
    readOutput sp m inside a s = .next (s.setReadData (v.setWidth 32)) := by
  rw [readOutput, if_neg (Bool.eq_false_iff.mp hb), if_pos hin, h]

theorem readOutput_of_none {w : Nat} {sp : Space} {m : Memory w} {inside : Bool} {a : Nat} {s : State}
    (hb : s.status.busy = false) (hin : inside = true) (h : m.read a = none) :
    readOutput sp m inside a s = .fault (.readOfNoValue sp a) := by
  rw [readOutput, if_neg (Bool.eq_false_iff.mp hb), if_pos hin, h]

/-- Settles O46: each location is inside its space, and the read answers by what the location holds. -/
theorem outputReadsReturnOnlyWrittenValues : Obligations.OutputReadsReturnOnlyWrittenValues := by
  intro s rest hb
  refine ⟨fun x hx y hy => ?_, fun v a ha => ?_⟩
  · have hin : (decide (x < 256) && decide (y < 240)) = true := by simp [hx, hy]
    exact ⟨fun _ => readOutput_of_some (s := s.setInputs rest) hb hin,
      readOutput_of_none (s := s.setInputs rest) hb hin⟩
  · have hin : decide (a < v.bytes) = true := decide_eq_true ha
    exact ⟨fun _ => readOutput_of_some (s := s.setInputs rest) hb hin,
      readOutput_of_none (s := s.setInputs rest) hb hin⟩

/-- Settles O55: `BUSY` is looked at before the location is. -/
theorem outputReadsInFlightAreRefused : Obligations.OutputReadsInFlightAreRefused := fun s rest hb =>
  ⟨fun _ _ => readOutput_of_busy (s := s.setInputs rest) hb,
    fun _ _ => readOutput_of_busy (s := s.setInputs rest) hb⟩

/-! ### The Provider and the Sink (R24, R40, R180) -/

theorem provide_of_idle {sp : Space} {inside : Bool} {a : Nat} {n : Snapshot} {s : State} (hb : s.status.busy = false)
    (hin : inside = true) : provide sp inside a n s = .next (s.setSnap n) := by
  rw [provide, if_neg (Bool.eq_false_iff.mp hb), if_pos hin]

theorem replaces_write {w : Nat} (m : Memory w) (a : Nat) (v : BitVec w) : Replaces m (m.write a v) a v :=
  ⟨Memory.read_write_same m a v, fun _ h => Memory.read_write_other m v h⟩

/-- Settles O47: while no command is in flight each of the seven moves writes the location it names. -/
theorem providerWritesOneLocation : Obligations.ProviderWritesOneLocation := by
  intro s rest v hb
  refine ⟨fun k hk e => ⟨_, replaces_write _ k e, ?_⟩, fun a ha => ⟨_, replaces_write _ a v, ?_⟩,
    fun a ha => ⟨_, replaces_write _ a v, ?_⟩, fun b hb' o ho => ⟨_, replaces_write _ (2048 * b + o) v, ?_⟩,
    fun a ha => ⟨_, replaces_write _ a v, ?_⟩, fun b => ?_, fun b => ?_⟩
  · exact provide_of_idle (s := s.setInputs rest) hb (decide_eq_true hk)
  · exact provide_of_idle (s := s.setInputs rest) hb (decide_eq_true ha)
  · exact provide_of_idle (s := s.setInputs rest) hb (decide_eq_true ha)
  · exact provide_of_idle (s := s.setInputs rest) hb (by simp [hb', ho])
  · exact provide_of_idle (s := s.setInputs rest) hb (decide_eq_true ha)
  · exact provide_of_idle (s := s.setInputs rest) hb rfl
  · exact provide_of_idle (s := s.setInputs rest) hb rfl

/-- Settles O53: the move is the update of one readiness input. -/
theorem sinkDrivesOneReadinessInput : Obligations.SinkDrivesOneReadinessInput := fun s _ v ok =>
  ⟨s.surfOk.set v ok, rfl, SurfOk.get_set_same _ v ok, fun _ h => SurfOk.get_set_other _ ok h⟩

/-! ### Reset and the idle block (R33, R170, R171) -/

theorem reset_surface (v : View) : State.reset.surface v = [] := Surfaces.empty_get v

/-- Settles O1: every output of the state after reset is a memory without a location. -/
theorem powerUpHoldsTheResetValues : Obligations.PowerUpHoldsTheResetValues := by
  unfold Obligations.PowerUpHoldsTheResetValues
  refine ⟨by decide, rfl, by decide, rfl, fun _ => rfl, fun v a => ?_⟩
  rw [reset_surface, Memory.read_nil]

/-- Settles O2: reset gives the block's registers and outputs their values and leaves the rest alone. -/
theorem resetClearsTheBlockOnly : Obligations.ResetClearsTheBlockOnly := by
  intro s rest hin
  refine ⟨resetBlock (s.setInputs rest), step_of_event hin, by rw [resetBlock_status]; decide, resetBlock_rgb _,
    by rw [resetBlock_finfo]; decide, resetBlock_latched _, fun a => ?_, fun v a => ?_, resetBlock_snap _,
    resetBlock_surfOk _, resetBlock_params _, resetBlock_inputs _, resetBlock_readData _⟩
  · rw [resetBlock_ix, Memory.read_nil]
  · rw [resetBlock_surface, Memory.read_nil]

/-- Settles O3: with no event to come the step ends the command in flight, and there is none. -/
theorem idleBlockWaits : Obligations.IdleBlockWaits := fun _ hin hl =>
  (step_of_no_event hin).trans (finishCommand_of_idle hl)

end Sys2Proof
end

section
/-!
PROOFS. What the body of a command writes, and how it ends (R54, R55, R158 steps 7 and 8, R166): one writer per output,
no unwritten location but a refusal, every command ended.
-/

namespace Sys2Proof

open Machine Claims

/-! ### The destination of a command -/

/-- The state `t` is `s` with values, specified or not, written to the destination of `i` (R20, R25, R54, R166). -/
inductive WritesDestination : Instr → State → State → Prop where
  | nothing {i : Instr} {s : State} : WritesDestination i s s
  | surface {i : Instr} {s : State} {v : View} {m : Memory 8} (hv : viewOf i = some v) (hwf : m.wf = true)
      (hbelow : m.below v.bytes = true) : WritesDestination i s (s.setSurface v m)
  | cells {t : Nat} {h v : Bool} {x0 y0 : Nat} {s : State} {m : Memory 2} (hwf : s.ix.wf = true → m.wf = true)
      (hbelow : s.ix.below 61440 = true → m.below 61440 = true) : WritesDestination (.tile t h v x0 y0) s (s.setIx m)
  | colour {g p : Nat} {s : State} (c : Rgb) : WritesDestination (.resolve g p) s (s.setRgb (c.setWidth 32))
  | drawn {i : Instr} {s t : State} (h : WritesDestination i s t) : WritesDestination i s t.drawFree

theorem writesDestination_spoilSurface {i : Instr} {v : View} (hv : viewOf i = some v) (s : State) :
    WritesDestination i s (spoilSurface v s) :=
  .drawn (.surface hv (Memory.wf_tabulate _ _) (Memory.below_tabulate _ _))

theorem writesDestination_square {t x0 y0 : Nat} {h v : Bool} (s : State) (f : Nat → Nat → PixVal)
    (hfit : tileFits x0 y0 = true) : WritesDestination (.tile t h v x0 y0) s (s.setIx (writeSquare s.ix x0 y0 f)) :=
  .cells (wf_writeSquare x0 y0 f) (below_writeSquare f hfit)

theorem writesDestination_spoilDestination (i : Instr) (s : State) : WritesDestination i s (spoilDestination i s) := by
  cases i with
  | tile t h v x0 y0 =>
    rw [spoilDestination, spoilTile]
    split
    · exact .drawn (writesDestination_square s _ ‹_›)
    · exact .nothing
  | resolve g p => exact .drawn (.colour _)
  | _ => exact writesDestination_spoilSurface rfl s

/-- How the body of a command ends: its destination is written, and the command completes or takes an `OutOfRange`
(R55, R158, R166). -/
theorem bodyOf_next_writes {i : Instr} {s t : State} (h : bodyOf i s = .next t) :
    ∃ u, WritesDestination i s u ∧
      (t = complete u ∨ ∃ op f, f.cause = .outOfRange ∧ t = raiseFault op f u) := by
  cases hv : viewOf i with
  | some v =>
    rcases bodyOf_view_next hv h with ⟨-, rfl⟩ | ⟨f, hcause, -, rfl⟩
    · exact ⟨_, .surface hv (wf_frameOf _ _ _) (below_frameOf _ _ _), .inl rfl⟩
    · exact ⟨_, writesDestination_spoilSurface hv s, .inr ⟨_, f, hcause, rfl⟩⟩
  | none =>
    cases i with
    | tile n fh fv x0 y0 =>
      rcases tileBody_next h with ⟨hfit, -, rfl⟩ | ⟨f, hcause, rfl⟩
      · exact ⟨_, writesDestination_square s _ hfit, .inl rfl⟩
      · exact ⟨_, .nothing, .inr ⟨_, f, hcause, rfl⟩⟩
    | resolve g p =>
      rcases resolveBody_next h with ⟨c, -, rfl⟩ | ⟨f, hcause, -, rfl⟩
      · exact ⟨_, .colour c, .inl rfl⟩
      · exact ⟨_, .nothing, .inr ⟨_, f, hcause, rfl⟩⟩
    | _ => cases hv

/-! ### What a command leaves alone -/

namespace WritesDestination
variable {i : Instr} {s t : State} (h : WritesDestination i s t)
include h

/-- No status, no report and no latched word is part of a destination. -/
theorem keepsControl : t.status = s.status ∧ t.finfo = s.finfo ∧ t.latched = s.latched := by
  induction h with
  | drawn _ ih => exact ih
  | _ => exact ⟨rfl, rfl, rfl⟩

theorem keepsOutside : KeepsOutside s t := by
  induction h with
  | drawn _ ih => exact ih
  | _ => exact ⟨rfl, rfl, rfl, rfl, rfl⟩

theorem keepsSurface {v : View} (hv : viewOf i ≠ some v) : t.surface v = s.surface v := by
  induction h with
  | surface hu => exact State.setSurface_surface_other _ _ fun hvu => hv (hvu ▸ hu)
  | drawn _ ih => exact ih hv
  | _ => rfl

theorem keepsRgb (hi : ∀ g p, i ≠ .resolve g p) : t.rgb = s.rgb := by
  induction h with
  | colour => exact absurd rfl (hi _ _)
  | drawn _ ih => exact ih hi
  | _ => rfl

theorem keepsIx (hi : ∀ n h v x0 y0, i ≠ .tile n h v x0 y0) : t.ix = s.ix := by
  induction h with
  | cells => exact absurd rfl (hi _ _ _ _ _)
  | drawn _ ih => exact ih hi
  | _ => rfl

end WritesDestination

/-- Beside the control registers, `t` differs from `s` in the destination of `i` only. -/
def KeepsOtherDestinations (i : Instr) (s t : State) : Prop :=
  KeepsOutside s t ∧ (∀ v, viewOf i ≠ some v → t.surface v = s.surface v) ∧
    ((∀ g p, i ≠ .resolve g p) → t.rgb = s.rgb) ∧ ((∀ n h v x0 y0, i ≠ .tile n h v x0 y0) → t.ix = s.ix)

theorem keepsOtherDestinations_of_body {i : Instr} {s t : State} (h : bodyOf i s = .next t) :
    KeepsOtherDestinations i s t := by
  obtain ⟨u, hu, rfl | ⟨op, f, -, rfl⟩⟩ := bodyOf_next_writes h
  · exact ⟨hu.keepsOutside, fun _ => hu.keepsSurface, hu.keepsRgb, hu.keepsIx⟩
  · refine ⟨keepsOutside_trans hu.keepsOutside (keepsOutside_raiseFault op f u), fun v hv => ?_, fun hi => ?_,
      fun hi => ?_⟩
    · rw [raiseFault_surface, hu.keepsSurface hv]
    · rw [raiseFault_rgb, hu.keepsRgb hi]
    · rw [raiseFault_ix, hu.keepsIx hi]

/-- Settles O35: a surface error writes no output, and a body writes its destination only. -/
theorem eachOutputHasOneWriter : Obligations.EachOutputHasOneWriter := by
  intro i s t h
  rcases exec_next h with ⟨v, -, -, rfl⟩ | ⟨-, hbody⟩
  · exact ⟨⟨rfl, rfl, rfl, rfl, rfl⟩, fun _ _ => rfl, fun _ => rfl, fun _ => rfl⟩
  · exact keepsOtherDestinations_of_body hbody

/-! ### Every executed command has ended (R173) -/

/-- The command is over: not in flight, and nothing is latched. -/
def Ended (t : State) : Prop := t.status.busy = false ∧ t.status.done = true ∧ t.latched = none

theorem ended_raiseFault {op : Nibble} {f : FaultInfo} {s : State} (h : s.status.fault = false) :
    Ended (raiseFault op f s) := by
  rw [Ended, raiseFault_status h, raiseFault_latched h]
  exact ⟨rfl, rfl, rfl⟩

/-- Settles O37: each of the three ends of a command clears `BUSY`, sets `DONE` and drops the latched word. -/
theorem executedCommandsEnd : Obligations.ExecutedCommandsEnd := by
  intro i s t hf h
  rcases exec_next h with ⟨v, -, -, rfl⟩ | ⟨-, hbody⟩
  · exact ⟨rfl, rfl, rfl⟩
  · obtain ⟨u, hu, rfl | ⟨op, f, -, rfl⟩⟩ := bodyOf_next_writes hbody
    · exact ⟨rfl, rfl, rfl⟩
    · obtain ⟨hstatus, -⟩ := hu.keepsControl
      exact ended_raiseFault (by rw [hstatus, hf])

/-! ### What is written depends on the snapshot and the parameters only (R7) -/

theorem readsAlike_of_snap_eq {s s' : State} (hsnap : s'.snap = s.snap) (hparams : s'.params = s.params) :
    ReadsAlike s s' := by
  cases s; cases s'; cases hsnap; cases hparams
  exact {}

theorem evaluatesAlike_of_snap_eq (i : Instr) {s s' : State} (hsnap : s'.snap = s.snap)
    (hparams : s'.params = s.params) : EvaluatesAlike i s s' :=
  (readsAlike_of_snap_eq hsnap hparams).evaluatesAlike fun _ _ _ => by rw [State.readPal, State.readPal, hsnap]

/-- A `RESOLVE` that takes no fault leaves the colour of its pair. -/
theorem rgb_of_exec_healthy {g p : Nat} {s t : State} (h : exec (.resolve g p) s = .next t)
    (hhealthy : t.status.fault = false) : ∃ c, resolve s g p = .ok c ∧ t.rgb = c.setWidth 32 := by
  rcases resolveBody_next h with ⟨c, hc, rfl⟩ | ⟨f, -, -, rfl⟩
  · exact ⟨c, hc, rfl⟩
  · rw [raiseFault_fault] at hhealthy
    exact absurd hhealthy (by decide)

/-- A `TILE` that takes no fault leaves the pixel values of its tile. -/
theorem ix_of_exec_healthy {n x0 y0 : Nat} {h v : Bool} {s t : State} (hexec : exec (.tile n h v x0 y0) s = .next t)
    (hhealthy : t.status.fault = false) {c r : Nat} (hc : c < 8) (hr : r < 8) :
    t.ix.read (ixKey (x0 + c) (y0 + r)) = some (pixelValue (tileGrid s n h v r c)) := by
  rcases tileBody_next hexec with ⟨-, -, rfl⟩ | ⟨f, -, rfl⟩
  · rw [complete_ix, State.setIx_ix, read_writeSquare hc hr]
  · rw [raiseFault_fault] at hhealthy
    exact absurd hhealthy (by decide)

/-- Settles O36: without a fault each destination holds what the command evaluates, and both evaluate alike. -/
theorem commandsAreFunctionsOfTheSnapshot : Obligations.CommandsAreFunctionsOfTheSnapshot := by
  intro i s s' t t' hsnap hparams h h' hf hf'
  have halike := evaluatesAlike_of_snap_eq i hsnap hparams
  refine ⟨⟨exec_keeps_snap h, exec_keeps_snap h'⟩, fun v hv hready hready' => ?_, fun g p hi => ?_,
    fun n fh fv x0 y0 hi r hr c hc => ?_⟩
  · rw [surface_of_exec_healthy hv h hf, surface_of_exec_healthy hv h' hf', if_pos hready, if_pos hready']
    exact frameOf_congr (halike.pixels v hv)
  · subst hi
    obtain ⟨c, hc, hrgb⟩ := rgb_of_exec_healthy h hf
    obtain ⟨c', hc', hrgb'⟩ := rgb_of_exec_healthy h' hf'
    rw [halike.colour g p rfl, hc', Except.ok.injEq] at hc
    rw [hrgb, hrgb', hc]
  · subst hi
    rw [← ixKey, ix_of_exec_healthy h hf hc hr, ix_of_exec_healthy h' hf' hc hr, halike.cells n fh fv x0 y0 rfl]

/-! ### Where a command is refused (R172 (a)) -/

/-- The evaluation stops at no location of the snapshot but an unwritten one. -/
def GapsUnwritten {α : Type} (s : State) (x : Except Stop α) : Prop :=
  ∀ sp a, x = .error (.unwritten sp a) → Unwritten s sp a

section Gaps
variable {s : State}

theorem GapsUnwritten.ok {α : Type} (a : α) : GapsUnwritten s (.ok a) := fun _ _ h => nomatch h

theorem GapsUnwritten.bind {α β : Type} {x : Except Stop α} {f : α → Except Stop β} (hx : GapsUnwritten s x)
    (hf : ∀ a, GapsUnwritten s (f a)) : GapsUnwritten s (x >>= f) := by
  intro sp a h
  rcases bind_eq_error.mp h with h | ⟨b, -, h⟩
  · exact hx sp a h
  · exact hf b sp a h

theorem GapsUnwritten.checkedRead {w : Nat} {sp : Space} {m : Memory w} {i aux : Nat}
    (h : i < sp.size → m.read i = none → Unwritten s sp i) : GapsUnwritten s (checkedRead sp m i aux) := by
  intro sp' a hstop
  rcases checkedRead_eq_error.mp hstop with ⟨-, he⟩ | ⟨hlt, hnone, he⟩
  · cases he
  · cases he
    exact h hlt hnone

theorem gapsUnwritten_readCt (k aux : Nat) : GapsUnwritten s (s.readCt k aux) := .checkedRead And.intro
theorem gapsUnwritten_readPal (a : Nat) : GapsUnwritten s (s.readPal a) := .checkedRead And.intro
theorem gapsUnwritten_readChr (a : Nat) : GapsUnwritten s (s.readChr a) := .checkedRead And.intro
theorem gapsUnwritten_readNt (b o : Nat) : GapsUnwritten s (s.readNt b o) := .checkedRead And.intro
theorem gapsUnwritten_readOam (a : Nat) : GapsUnwritten s (s.readOam a) := .checkedRead And.intro

theorem gapsUnwritten_readTall : GapsUnwritten s s.readTall := by
  intro sp a h
  unfold State.readTall at h
  split at h
  · cases h
  · cases h; assumption

theorem gapsUnwritten_readBgsel : GapsUnwritten s s.readBgsel := by
  intro sp a h
  unfold State.readBgsel at h
  split at h
  · cases h
  · cases h; assumption

theorem gapsUnwritten_tilePix (t r c : Nat) : GapsUnwritten s (tilePix s t r c) :=
  .bind (gapsUnwritten_readChr _) fun _ => .bind (gapsUnwritten_readChr _) fun _ => .ok _

theorem gapsUnwritten_resolve (g p : Nat) : GapsUnwritten s (resolve s g p) :=
  .bind (gapsUnwritten_readPal _) fun _ => .bind (gapsUnwritten_readCt _ _) fun _ => .ok _

theorem gapsUnwritten_nametablePix (b x y : Nat) : GapsUnwritten s (nametablePix s b x y) :=
  .bind (.bind (gapsUnwritten_readNt _ _) fun _ => .bind gapsUnwritten_readBgsel fun _ => .ok _) fun _ =>
    .bind (.bind (gapsUnwritten_readNt _ _) fun _ => .ok _) fun _ =>
      .bind (gapsUnwritten_tilePix _ _ _) fun _ => gapsUnwritten_resolve _ _

theorem gapsUnwritten_spritePix (n r c : Nat) (tileOf : Byte → Nat) : GapsUnwritten s (spritePix s n r c tileOf) :=
  .bind (gapsUnwritten_readOam _) fun _ => .bind (gapsUnwritten_readOam _) fun _ =>
    .bind (gapsUnwritten_tilePix _ _ _) fun _ => gapsUnwritten_resolve _ _

theorem gapsUnwritten_oamPix (x y : Nat) : GapsUnwritten s (oamPix s x y) := by
  refine .bind gapsUnwritten_readTall fun tall => ?_
  split
  · exact gapsUnwritten_spritePix _ _ _ _
  · split
    · exact .bind gapsUnwritten_readBgsel fun _ => gapsUnwritten_spritePix _ _ _ _
    · exact .ok _

theorem gapsUnwritten_pixelsOf (i : Instr) (x y : Nat) : GapsUnwritten s (pixelsOf i s x y) := by
  cases i with
  | pattern sel => exact .bind (gapsUnwritten_tilePix _ _ _) fun _ => .ok _
  | nametable b => exact gapsUnwritten_nametablePix b x y
  | oamview => exact gapsUnwritten_oamPix x y
  | colors => exact .bind (gapsUnwritten_readCt _ _) fun _ => .ok _
  | palette => exact .bind (gapsUnwritten_readPal _) fun _ => .bind (gapsUnwritten_readCt _ _) fun _ => .ok _
  | _ => exact .ok _

theorem firstStop_unwritten {α : Type} {w h : Nat} {pix : PixelFn α} (hpix : ∀ x y, GapsUnwritten s (pix x y))
    {sp : Space} {a : Nat} (hstop : firstStop w h pix = some (.unwritten sp a)) : Unwritten s sp a := by
  obtain ⟨x, -, y, -, herr, -⟩ := firstStop_eq_some.mp hstop
  exact hpix x y sp a herr

end Gaps

/-- The outcome is a next state, or the refusal that R172 (a) names. -/
def AnswersOrUnwritten (s : State) (o : Host.Outcome State Fault Refusal) : Prop :=
  (∃ t, o = .next t) ∨ ∃ sp a, o = .refused (.snapshotNotWritten sp a) ∧ Unwritten s sp a

theorem answersOrUnwritten_stopped {op : Nibble} {e : Stop} {s : State}
    (h : ∀ sp a, e = .unwritten sp a → Unwritten s sp a) : AnswersOrUnwritten s (stopped op e s) := by
  cases e with
  | fault f => exact .inl ⟨_, rfl⟩
  | unwritten sp a => exact .inr ⟨sp, a, rfl, h sp a rfl⟩

theorem answersOrUnwritten_tileBody (t : Nat) (h v : Bool) (x0 y0 : Nat) (s : State) :
    AnswersOrUnwritten s (tileBody t h v x0 y0 s) := by
  unfold tileBody
  split
  · split
    · refine answersOrUnwritten_stopped fun sp a he => ?_
      subst he
      exact firstStop_unwritten (fun _ _ => gapsUnwritten_tilePix _ _ _) ‹_›
    · exact .inl ⟨_, rfl⟩
  · exact .inl ⟨_, rfl⟩

theorem answersOrUnwritten_resolveBody (g p : Nat) (s : State) : AnswersOrUnwritten s (resolveBody g p s) := by
  unfold resolveBody
  split
  · exact .inl ⟨_, rfl⟩
  · refine answersOrUnwritten_stopped fun sp a he => ?_
    subst he
    exact gapsUnwritten_resolve g p sp a ‹_›

theorem answersOrUnwritten_view {i : Instr} {v : View} (hv : viewOf i = some v) (s : State) :
    AnswersOrUnwritten s (bodyOf i s) := by
  rw [bodyOf_view hv, renderView, launchGap_eq]
  split
  · rename_i sp a hgap
    obtain ⟨e, hstop, he⟩ := Option.bind_eq_some_iff.mp hgap
    cases e with
    | fault f => cases he
    | unwritten sp' a' =>
      cases he
      exact .inr ⟨sp, a, rfl, firstStop_unwritten (fun x y => gapsUnwritten_pixelsOf i x y) hstop⟩
  · exact .inl ⟨_, rfl⟩

/-- Settles O38: a command stops early only where one of its evaluations does, and those stop at a fault of the block or
at an unwritten location. -/
theorem commandsStopOnlyAtUnwrittenLocations : Obligations.CommandsStopOnlyAtUnwrittenLocations := by
  intro i s
  show AnswersOrUnwritten s (exec i s)
  cases hv : viewOf i with
  | some v =>
    rw [exec_view hv, ifSurfaceReady]
    split
    · exact answersOrUnwritten_view hv s
    · exact .inl ⟨_, rfl⟩
  | none =>
    cases i with
    | tile t h v x0 y0 => exact answersOrUnwritten_tileBody t h v x0 y0 s
    | resolve g p => exact answersOrUnwritten_resolveBody g p s
    | _ => cases hv

/-- Settles O39: with every location written a command is refused nowhere. -/
theorem completeSnapshotRunsEveryCommand : Obligations.CompleteSnapshotRunsEveryCommand := by
  intro i s hct hpal hchr hnt hoam htall hbgsel
  refine (commandsStopOnlyAtUnwrittenLocations i s).resolve_right ?_
  have hwritten {w : Nat} {m : Memory w} {n a : Nat} (hm : ∀ k < n, ∃ v, m.read k = some v) :
      ¬(a < n ∧ m.read a = none) := by
    rintro ⟨hlt, hnone⟩
    obtain ⟨v, hv⟩ := hm a hlt
    cases hnone.symm.trans hv
  have hbit {α : Type} {o : Option α} (ho : ∃ v, o = some v) : ¬o = none := by
    obtain ⟨v, rfl⟩ := ho
    exact Option.some_ne_none v
  rintro ⟨sp, a, -, hgap⟩
  cases sp with
  | ct => exact hwritten hct hgap
  | pal => exact hwritten hpal hgap
  | chr => exact hwritten hchr hgap
  | nt => exact hwritten hnt hgap
  | oam => exact hwritten hoam hgap
  | tall => exact hbit htall hgap
  | bgsel => exact hbit hbgsel hgap
  | _ => exact hgap

end Sys2Proof
end

section
/-!
PROOFS. The life of a command (R152, R157, R158, R172, R173): acceptance, the surface error, the two forms of a `CMD`
write, and a launch.
-/

namespace Sys2Proof

open Machine Claims

/-! ### Acceptance (R158 steps 3 and 5) -/

/-- The flags while a command that began without a fault is in flight. -/
theorem started_cleared {st : Status} (h : st.fault = false) :
    st.cleared.started = { busy := true, done := false, fault := false, surf := false, code := 0, op := 0 } := by
  cases st; cases h; rfl

theorem acceptCommand_eq (w : Word) {s : State} (h : s.status.fault = false) : acceptCommand w s = { s with
    finfo := { index := 0, space := 0, aux := 0 }, latched := some w,
    status := { busy := true, done := false, fault := false, surf := false, code := 0, op := 0 } } := by
  rw [← started_cleared h]; rfl

/-- Settles O9: the write is legal, so the command runs in the accepted state. -/
theorem stepRunsTheDecodedCommand : Obligations.StepRunsTheDecodedCommand := by
  intro s w rest i hin hb hf hd
  rw [step_of_event hin, applyEvent, cmdWrite_of_command (s := s.setInputs rest) hb hf hd,
    acceptCommand_eq w (s := s.setInputs rest) hf]
  rfl

/-! ### Readiness (R152, R157) -/

theorem sampleSurface_of_ready {i : Instr} {s : State} (h : ∀ v, viewOf i = some v → s.surfOk.get v = true) :
    sampleSurface i s = s := by
  unfold sampleSurface
  split
  · rfl
  · rw [if_pos (h _ ‹_›)]

theorem sampleSurface_of_unready {i : Instr} {v : View} {s : State} (hv : viewOf i = some v)
    (h : s.surfOk.get v = false) : sampleSurface i s = raiseSurfaceError i.opcode v s := by
  rw [sampleSurface, hv]
  exact if_neg (Bool.eq_false_iff.mp h)

theorem exec_of_ready {i : Instr} {s : State} (h : ∀ v, viewOf i = some v → s.surfOk.get v = true) :
    exec i s = bodyOf i s := by
  cases hv : viewOf i with
  | none => exact exec_no_view hv s
  | some v => rw [exec_view hv, ifSurfaceReady_ready (h v hv)]

theorem exec_of_unready {i : Instr} {v : View} {s : State} (hv : viewOf i = some v) (h : s.surfOk.get v = false) :
    exec i s = .next (raiseSurfaceError i.opcode v s) := by
  rw [exec_view hv, ifSurfaceReady_not_ready h]

/-- Settles O10: the surface is ready, so sampling it leaves the accepted state. -/
theorem timedCommandIsInFlight : Obligations.TimedCommandIsInFlight := by
  intro s w rest i hin hb hf hd hready
  rw [step_of_event hin, applyEvent, cmdBegin_of_command (s := s.setInputs rest) hb hf hd,
    sampleSurface_of_ready (s := acceptCommand w (s.setInputs rest)) hready,
    acceptCommand_eq w (s := s.setInputs rest) hf]
  rfl

theorem step_of_unready {s : State} {e : Event} {w : Word} {rest : List Event} {i : Instr} {v : View}
    (he : IsCmdWrite e w) (hin : s.inputs = e :: rest) (hb : s.status.busy = false) (hf : s.status.fault = false)
    (hd : decode w = .ok i) (hv : viewOf i = some v) (h : s.surfOk.get v = false) :
    step s = .next (raiseSurfaceError i.opcode v (acceptCommand w (s.setInputs rest))) :=
  step_of_isCmdWrite he hin
    ((cmdWrite_of_command (s := s.setInputs rest) hb hf hd).trans (exec_of_unready hv h))
    ((cmdBegin_of_command (s := s.setInputs rest) hb hf hd).trans (sampleSurface_of_unready hv h))

theorem keepsOutputs_surfaceError (op : Nibble) (v : View) (w : Word) (s : State) :
    KeepsOutputs s (raiseSurfaceError op v (acceptCommand w s)) := by
  simp [KeepsOutputs]

theorem keepsOutside_surfaceError (op : Nibble) (v : View) (w : Word) (s : State) :
    KeepsOutside s (raiseSurfaceError op v (acceptCommand w s)) := by
  simp [KeepsOutside]

theorem surfaceErrorInfo_word (v : View) : (surfaceErrorInfo v).word = 0x00080000 ||| BitVec.ofNat 32 v.id := by
  cases v <;> decide

theorem surfaceErred_accepted {st : Status} (h : st.fault = false) (op : Nibble) :
    st.cleared.started.surfaceErred op =
      { busy := false, done := true, fault := false, surf := true, code := 2, op := op } := by
  rw [started_cleared h]; rfl

/-- Settles O34: both forms of the write take the error in the accepted state, and `SURF_OK` is all they look at. -/
theorem unreadySurfaceTakesSurfaceError : Obligations.UnreadySurfaceTakesSurfaceError := by
  intro s e w rest i v he hin hb hf hd hv hok
  refine ⟨_, step_of_unready he hin hb hf hd hv hok, ?_, surfaceErrorInfo_word v, raiseSurfaceError_latched _ _ _,
    keepsOutputs_surfaceError _ _ _ (s.setInputs rest), keepsOutside_surfaceError _ _ _ _,
    raiseSurfaceError_freeIndex _ _ _, fun n => step_of_unready (s := s.setSnap n) he hin hb hf hd hv hok⟩
  rw [raiseSurfaceError_status, acceptCommand_status, ← opField_of_decode hd]
  exact surfaceErred_accepted hf _

/-! ### Changes that a command does not look at -/

/-- The change is to a part of the state that no command looks at or writes. -/
structure UnseenByCommands (f : State → State) : Prop where
  snap : ∀ s, (f s).snap = s.snap := by intros; rfl
  params : ∀ s, (f s).params = s.params := by intros; rfl
  ix : ∀ s, (f s).ix = s.ix := by intros; rfl
  status : ∀ s, (f s).status = s.status := by intros; rfl
  setIx : ∀ s m, (f s).setIx m = f (s.setIx m) := by intros; rfl
  setRgb : ∀ s c, (f s).setRgb c = f (s.setRgb c) := by intros; rfl
  setSurface : ∀ s v m, (f s).setSurface v m = f (s.setSurface v m) := by intros; rfl
  spoilSurface : ∀ s v, spoilSurface v (f s) = f (spoilSurface v s) := by intros; rfl
  endCommand : ∀ s st, (f s).endCommand st = f (s.endCommand st) := by intros; rfl
  setFinfo : ∀ s x, (f s).setFinfo x = f (s.setFinfo x) := by intros; rfl

theorem unseenByCommands_setSurfOk (o : SurfOk) : UnseenByCommands (·.setSurfOk o) := {}
theorem unseenByCommands_setInputs (l : List Event) : UnseenByCommands (·.setInputs l) := {}

section Unseen
variable {f : State → State} (hf : UnseenByCommands f)
include hf

theorem complete_unseen (s : State) : complete (f s) = f (complete s) := by
  rw [complete, complete, hf.status, hf.endCommand]

theorem raiseFault_unseen (op : Nibble) (x : FaultInfo) (s : State) :
    raiseFault op x (f s) = f (raiseFault op x s) := by
  rw [raiseFault, raiseFault, hf.status, hf.endCommand, hf.setFinfo]
  split <;> rfl

theorem stopped_unseen (op : Nibble) (e : Stop) (s : State) : stopped op e (f s) = mapNext f (stopped op e s) := by
  cases e with
  | fault x => exact congrArg Host.Outcome.next (raiseFault_unseen hf op x s)
  | unwritten sp a => rfl

theorem evaluatesAlike_unseen (i : Instr) (s : State) : EvaluatesAlike i s (f s) :=
  evaluatesAlike_of_snap_eq i (hf.snap s) (hf.params s)

theorem tileBody_unseen (t : Nat) (h v : Bool) (x0 y0 : Nat) (s : State) :
    tileBody t h v x0 y0 (f s) = mapNext f (tileBody t h v x0 y0 s) := by
  unfold tileBody
  simp only [(evaluatesAlike_unseen hf (.tile t h v x0 y0) s).cells t h v x0 y0 rfl, hf.ix, hf.setIx,
    complete_unseen hf, stopped_unseen hf, raiseFault_unseen hf]
  split
  · cases firstStop 8 8 fun c r => tileGrid s t h v r c <;> rfl
  · rfl

theorem resolveBody_unseen (g p : Nat) (s : State) : resolveBody g p (f s) = mapNext f (resolveBody g p s) := by
  unfold resolveBody
  rw [(evaluatesAlike_unseen hf (.resolve g p) s).colour g p rfl]
  cases resolve s g p with
  | ok c => exact congrArg Host.Outcome.next ((congrArg complete (hf.setRgb s _)).trans (complete_unseen hf _))
  | error e => exact stopped_unseen hf opResolve e s

theorem viewBody_unseen {i : Instr} {v : View} (hv : viewOf i = some v) (s : State) :
    bodyOf i (f s) = mapNext f (bodyOf i s) := by
  have hpix := (evaluatesAlike_unseen hf i s).pixels v hv
  have hend : endView v i.opcode (pixelsOf i (f s)) (f s) = f (endView v i.opcode (pixelsOf i s) s) := by
    unfold endView
    rw [firstStop_congr hpix, frameOf_congr hpix, hf.setSurface, hf.spoilSurface, complete_unseen hf]
    split
    · exact raiseFault_unseen hf _ _ _
    · rfl
  rw [bodyOf_view hv, bodyOf_view hv, renderView, renderView, launchGap_eq, launchGap_eq, firstStop_congr hpix, hend]
  split <;> rfl

/-- A change that no command looks at can be made before the body of a command or after it. -/
theorem bodyOf_unseen (i : Instr) (s : State) : bodyOf i (f s) = mapNext f (bodyOf i s) := by
  cases hv : viewOf i with
  | some v => exact viewBody_unseen hf hv s
  | none =>
    cases i with
    | tile t h v x0 y0 => exact tileBody_unseen hf t h v x0 y0 s
    | resolve g p => exact resolveBody_unseen hf g p s
    | _ => cases hv

end Unseen

theorem step_eq_bodyOf {s : State} {w : Word} {i : Instr} {rest : List Event}
    (hin : s.inputs = [] ∨ s.inputs = .finish :: rest) (hl : s.latched = some w) (hd : decode w = .ok i) :
    step s = bodyOf i (s.setInputs s.inputs.tail) := by
  have hevent : s.inputs.headD .finish = .finish := by rcases hin with h | h <;> rw [h] <;> rfl
  rw [step_eq_applyEvent, hevent]
  exact finishCommand_of_latched (s := s.setInputs s.inputs.tail) hl hd

/-- Settles O12: what ends is the body of the command, and a body does not look at `SURF_OK`. -/
theorem readinessIsSampledAtTheStart : Obligations.ReadinessIsSampledAtTheStart := by
  intro s w i o rest hin hl hd
  rw [step_eq_bodyOf (s := s.setSurfOk o) hin hl hd, step_eq_bodyOf hin hl hd]
  exact bodyOf_unseen (unseenByCommands_setSurfOk o) i (s.setInputs s.inputs.tail)

/-! ### The two forms of a `CMD` write (R173) -/

/-- The end of a command that was begun in an idle block is what the write that takes no time does. -/
theorem finishCommand_cmdBegin (w : Word) {s : State} (hb : s.status.busy = false) (hl : s.latched = none) :
    finishCommand (cmdBegin w s) = cmdWrite w s := by
  rcases cmdWrite_cases w s with ⟨hbusy, -⟩ | ⟨-, -, hw, hbegin⟩ | ⟨-, hf, hw, hbegin⟩ | ⟨i, -, hf, hd, hw, hbegin⟩
  · cases hb.symm.trans hbusy
  · rw [hw, hbegin, finishCommand_of_idle hl]
  · rw [hw, hbegin]
    exact finishCommand_of_idle (raiseFault_latched (s := clearReport s) hf)
  · rw [hw, hbegin]
    by_cases hready : ∀ v, viewOf i = some v → s.surfOk.get v = true
    · rw [sampleSurface_of_ready (s := acceptCommand w s) hready, exec_of_ready (s := acceptCommand w s) hready]
      exact finishCommand_of_latched rfl hd
    · push Not at hready
      obtain ⟨v, hv, hok⟩ := hready
      have hunready : (acceptCommand w s).surfOk.get v = false := Bool.eq_false_iff.mpr hok
      rw [sampleSurface_of_unready hv hunready, exec_of_unready hv hunready]
      exact finishCommand_of_idle rfl

theorem sampleSurface_setInputs (i : Instr) (s : State) (l : List Event) :
    sampleSurface i (s.setInputs l) = (sampleSurface i s).setInputs l := by
  unfold sampleSurface
  split
  · rfl
  · rw [State.setInputs_surfOk]
    split <;> rfl

/-- The events to come play no part in the beginning of a command. -/
theorem cmdBegin_setInputs (w : Word) {s : State} (hb : s.status.busy = false) (l : List Event) :
    cmdBegin w (s.setInputs l) = (cmdBegin w s).setInputs l := by
  unfold cmdBegin
  rw [State.setInputs_status, if_neg (Bool.eq_false_iff.mp hb), if_neg (Bool.eq_false_iff.mp hb)]
  split
  · rfl
  · cases decode w with
    | error r => exact raiseFault_unseen (unseenByCommands_setInputs l) _ _ (clearReport s)
    | ok i => exact sampleSurface_setInputs i (acceptCommand w s) l

/-- Settles O11: the state after the timed write is the one that the end of the command takes to the atomic outcome. -/
theorem timedCommandEndsAsTheAtomicOne : Obligations.TimedCommandEndsAsTheAtomicOne := by
  intro s w rest hb hl
  refine ⟨(cmdBegin w s).setInputs (.finish :: rest), ?_, ?_⟩
  · rw [step_setInputs, applyEvent, cmdBegin_setInputs w hb]
  · rw [step_setInputs, step_setInputs, applyEvent, applyEvent, ← cmdBegin_setInputs w hb]
    exact finishCommand_cmdBegin w (s := s.setInputs rest) hb hl

/-! ### A launch (R172, log 5) -/

/-- After a launch every command answers. -/
theorem exec_of_launchSnapshot (i : Instr) {s : State} {n : Snapshot} (h : s.snap = launchSnapshot n) :
    ∃ t, exec i s = .next t := by
  have hfill {w : Nat} (size : Nat) (m : Memory w) : ∀ a < size, ∃ v, (launchFill size m).read a = some v :=
    fun _ ha => ⟨_, read_launchFill size m ha⟩
  apply completeSnapshotRunsEveryCommand i s <;> rw [h]
  · rw [launchSnapshot_ct]; exact hfill 64 n.ct
  · rw [launchSnapshot_pal]; exact hfill 32 n.pal
  · rw [launchSnapshot_chr]; exact hfill 8192 n.chr
  · rw [launchSnapshot_nt]; exact hfill 8192 n.nt
  · rw [launchSnapshot_oam]; exact hfill 256 n.oam
  · exact ⟨_, launchSnapshot_tall n⟩
  · exact ⟨_, launchSnapshot_bgsel n⟩

/-- Settles O40: the launch's `CMD` write is legal and its snapshot complete, so the command runs to one of its ends. -/
theorem launchedCommandRunsFirst : Obligations.LaunchedCommandRunsFirst := by
  intro s i hwf hb hf
  have hword : BitVec.ofNat 32 ((encode i).toNat % 2 ^ 32) = encode i := by
    rw [Nat.mod_eq_of_lt (encode i).isLt, BitVec.ofNat_toNat, BitVec.setWidth_eq]
  have hin : (s.withFetchWord 32 (encode i).toNat).inputs = .cmd (encode i) :: s.inputs := by
    rw [withFetchWord_inputs, hword]
  have hstep := stepRunsTheDecodedCommand _ (encode i) s.inputs i hin hb hf (decodeInvertsEncode i hwf)
  obtain ⟨t, ht⟩ := exec_of_launchSnapshot i (n := s.snap) (s := { s with
    snap := launchSnapshot s.snap, finfo := { index := 0, space := 0, aux := 0 }, latched := some (encode i),
    status := { busy := true, done := false, fault := false, surf := false, code := 0, op := 0 } }) rfl
  obtain ⟨hbusy, hdone, hlatched⟩ := executedCommandsEnd i _ t rfl ht
  obtain ⟨⟨-, -, -, hinputs, -⟩, -⟩ := eachOutputHasOneWriter i _ t ht
  exact ⟨hstep, t, hstep.trans ht, hbusy, hdone, hlatched, hinputs⟩

end Sys2Proof
end

section
/-!
PROOFS. What a step can do, move by move (R180), and the invariant: every step keeps the memories inside their spaces
and the relations of R23, R25, R31 and R40 between the registers.
-/

namespace Sys2Proof

open Machine Claims

/-! ### Memories in canonical form inside a space -/

/-- The memory is in canonical form and inside a space of `n` locations (R40). -/
def MemoryOk {w : Nat} (n : Nat) (m : Memory w) : Prop := m.wf = true ∧ m.below n = true

theorem MemoryOk.nil {w n : Nat} : MemoryOk n ([] : Memory w) := ⟨rfl, rfl⟩

theorem MemoryOk.write {w n a : Nat} {m : Memory w} (h : MemoryOk n m) (v : BitVec w) (ha : a < n) :
    MemoryOk n (m.write a v) :=
  h.imp (Memory.wf_write a v) fun hbelow => Memory.below_write v hbelow ha

/-- Every memory of the snapshot is in canonical form and inside its space. -/
def SnapshotOk (n : Snapshot) : Prop :=
  MemoryOk 64 n.ct ∧ MemoryOk 32 n.pal ∧ MemoryOk 8192 n.chr ∧ MemoryOk 8192 n.nt ∧ MemoryOk 256 n.oam

theorem memoriesOk_iff (s : State) : s.memoriesOk ↔
    SnapshotOk s.snap ∧ MemoryOk 61440 s.ix ∧ ∀ v, MemoryOk v.bytes (s.surface v) := by
  simp only [State.memoriesOk, SnapshotOk, MemoryOk, and_assoc]

/-! ### What a step can do -/

/-- A move of the host, the Provider or the Sink that is no command: a read, a write that is ignored, a change of
`SURF_OK`, or, with no command in flight, a write of one snapshot location (R24, R47, R176, R180). -/
inductive AgentMove (s : State) : State → Prop where
  | ignored : AgentMove s s
  | drive (o : SurfOk) : AgentMove s (s.setSurfOk o)
  | read (d : Word) : AgentMove s (s.setReadData d)
  | readFree (d : Word) : AgentMove s (s.drawFree.setReadData d)
  | provide {n : Snapshot} (hidle : s.status.busy = false) (hok : SnapshotOk s.snap → SnapshotOk n) :
      AgentMove s (s.setSnap n)

theorem agentMove_of_hostRead {addr bytes : Nat} {s t : State} (h : hostRead addr bytes s = .next t) :
    AgentMove s t := by
  obtain ⟨d, rfl | rfl⟩ := hostRead_next h
  · exact .read d
  · exact .readFree d

theorem agentMove_of_readOutput {w : Nat} {sp : Space} {m : Memory w} {inside : Bool} {a : Nat} {s t : State}
    (h : readOutput sp m inside a s = .next t) : AgentMove s t := by
  obtain ⟨-, -, v, -, rfl⟩ := readOutput_next h
  exact .read _

theorem agentMove_of_provide {sp : Space} {inside : Bool} {a : Nat} {n : Snapshot} {s t : State}
    (h : provide sp inside a n s = .next t) (hok : inside = true → SnapshotOk s.snap → SnapshotOk n) :
    AgentMove s t := by
  obtain ⟨hidle, hin, rfl⟩ := provide_next h
  exact .provide hidle (hok hin)

/-- A step is a move of an agent, a `CMD` write, the end of a command, or reset (R180). -/
theorem applyEvent_next_move {e : Event} {s t : State} (h : applyEvent e s = .next t) :
    AgentMove s t ∨
    (∃ w, (IsCmdWrite e w ∨ ∃ addr n, e = .hostWrite addr n w) ∧ (cmdWrite w s = .next t ∨ cmdBegin w s = t)) ∨
    (e = .finish ∧ finishCommand s = .next t) ∨ (e = .rst ∧ t = resetBlock s) := by
  cases e with
  | cmd w => exact .inr (.inl ⟨w, .inl (.inl rfl), .inl h⟩)
  | cmdBegin w => exact .inr (.inl ⟨w, .inl (.inr rfl), .inr (Host.Outcome.next.inj h)⟩)
  | finish => exact .inr (.inr (.inl ⟨rfl, h⟩))
  | rst => exact .inr (.inr (.inr ⟨rfl, (Host.Outcome.next.inj h).symm⟩))
  | hostWrite addr bytes v =>
    rcases hostWrite_next h with rfl | hcmd
    · exact .inl .ignored
    · exact .inr (.inl ⟨v, .inr ⟨addr, bytes, rfl⟩, .inl hcmd⟩)
  | hostRead addr bytes => exact .inl (agentMove_of_hostRead h)
  | readIx x y => exact .inl (agentMove_of_readOutput h)
  | readSurface v a => exact .inl (agentMove_of_readOutput h)
  | driveSurfOk v ok =>
    obtain rfl := Host.Outcome.next.inj h
    exact .inl (.drive _)
  | provideCt k v =>
    exact .inl (agentMove_of_provide h fun hin ⟨hct, hrest⟩ => ⟨hct.write v (of_decide_eq_true hin), hrest⟩)
  | providePal a v =>
    exact .inl (agentMove_of_provide h fun hin ⟨hct, hpal, hrest⟩ =>
      ⟨hct, hpal.write v (of_decide_eq_true hin), hrest⟩)
  | provideChr a v =>
    exact .inl (agentMove_of_provide h fun hin ⟨hct, hpal, hchr, hrest⟩ =>
      ⟨hct, hpal, hchr.write v (of_decide_eq_true hin), hrest⟩)
  | provideNt b o v =>
    refine .inl (agentMove_of_provide h fun hin ⟨hct, hpal, hchr, hnt, hoam⟩ =>
      ⟨hct, hpal, hchr, hnt.write v ?_, hoam⟩)
    simp only [Bool.and_eq_true, decide_eq_true_eq] at hin
    unfold ntKey
    omega
  | provideOam a v =>
    exact .inl (agentMove_of_provide h fun hin ⟨hct, hpal, hchr, hnt, hoam⟩ =>
      ⟨hct, hpal, hchr, hnt, hoam.write v (of_decide_eq_true hin)⟩)
  | provideTall v => exact .inl (agentMove_of_provide h fun _ => id)
  | provideBgsel v => exact .inl (agentMove_of_provide h fun _ => id)

/-! ### What the moves leave alone -/

/-- Settles O48: such a move is no command, no end of one and no reset, and the others touch no output or register. -/
theorem otherAgentsLeaveTheBlockAlone : Obligations.OtherAgentsLeaveTheBlockAlone := by
  intro s t e rest hin hcmd hfinish hrst hwrite h
  rw [step_of_event hin] at h
  rcases applyEvent_next_move h with hmove | ⟨w, hw | ⟨addr, n, hw⟩, -⟩ | ⟨he, -⟩ | ⟨he, -⟩
  · cases hmove <;> exact ⟨⟨rfl, rfl, fun _ => rfl⟩, rfl, rfl, rfl, rfl⟩
  · exact absurd hw (hcmd w)
  · exact absurd hw (hwrite addr n w)
  · exact absurd he hfinish
  · exact absurd he hrst

theorem overrun_snap (w : Word) (s : State) : (overrun w s).snap = s.snap := by
  rw [overrun, raiseFault_snap]
  split
  · rfl
  · split
    · obtain ⟨hsnap, -⟩ := keepsOutside_spoilDestination _ s
      exact hsnap
    · rfl

theorem finishCommand_snap {s t : State} (h : finishCommand s = .next t) : t.snap = s.snap := by
  unfold finishCommand at h
  split at h
  · rw [← Host.Outcome.next.inj h]
  · split at h
    · rw [← Host.Outcome.next.inj h]
      exact raiseFault_snap _ _ (clearReport s)
    · obtain ⟨⟨hsnap, -⟩, -⟩ := keepsOtherDestinations_of_body h
      exact hsnap

/-- Settles O49: while a command is in flight the Provider has no move, a `CMD` write is an `Overrun`, and no command
writes the snapshot. -/
theorem snapshotHoldsWhileBusy : Obligations.SnapshotHoldsWhileBusy := by
  intro s t hb h
  rw [step_eq_applyEvent] at h
  have hbusy : (s.setInputs s.inputs.tail).status.busy = true := hb
  rcases applyEvent_next_move h with hmove | ⟨w, -, hw⟩ | ⟨-, hfinish⟩ | ⟨-, rfl⟩
  · cases hmove with
    | provide hidle => cases hidle.symm.trans hbusy
    | _ => rfl
  · rw [cmdWrite_of_busy hbusy, cmdBegin_of_busy hbusy, Host.Outcome.next.injEq, or_self] at hw
    rw [← hw]
    exact overrun_snap w (s.setInputs s.inputs.tail)
  · exact finishCommand_snap (s := s.setInputs s.inputs.tail) hfinish
  · rfl

/-! ### The invariant's data: the memories and `RGB` (R25, R40) -/

/-- The part of the invariant that speaks of memories and colours. -/
def DataOk (s : State) : Prop := s.memoriesOk ∧ s.rgbOk

theorem DataOk.congr {s t : State} (h : DataOk s) (hsnap : t.snap = s.snap) (hix : t.ix = s.ix)
    (hsurface : ∀ v, t.surface v = s.surface v) (hrgb : t.rgb = s.rgb) : DataOk t := by
  simpa only [DataOk, memoriesOk_iff, State.rgbOk, hsnap, hix, hsurface, hrgb] using h

theorem setWidth_rgb_lt (c : Rgb) : (c.setWidth 32).toNat < 2 ^ 24 := by
  rw [BitVec.toNat_setWidth_of_le (by decide)]
  exact c.isLt

theorem dataOk_writesDestination {i : Instr} {s t : State} (h : WritesDestination i s t) (hs : DataOk s) :
    DataOk t := by
  induction h with
  | nothing => exact hs
  | drawn _ ih => exact ih hs
  | colour c =>
    obtain ⟨hmem, -⟩ := hs
    exact ⟨hmem, setWidth_rgb_lt c⟩
  | cells hwf hbelow =>
    obtain ⟨hmem, hrgb⟩ := hs
    obtain ⟨hsnap, hix, hsurface⟩ := (memoriesOk_iff _).mp hmem
    exact ⟨(memoriesOk_iff _).mpr ⟨hsnap, hix.imp hwf hbelow, hsurface⟩, hrgb⟩
  | @surface i s v m hv hwf hbelow =>
    obtain ⟨hmem, hrgb⟩ := hs
    obtain ⟨hsnap, hix, hsurface⟩ := (memoriesOk_iff _).mp hmem
    refine ⟨(memoriesOk_iff _).mpr ⟨hsnap, hix, fun u => ?_⟩, hrgb⟩
    by_cases hu : u = v
    · subst hu
      rw [State.setSurface_surface]
      exact ⟨hwf, hbelow⟩
    · rw [State.setSurface_surface_other s m hu]
      exact hsurface u

theorem DataOk.raiseFault {s : State} (h : DataOk s) (op : Nibble) (f : FaultInfo) : DataOk (raiseFault op f s) :=
  h.congr (raiseFault_snap op f s) (raiseFault_ix op f s) (raiseFault_surface op f s) (raiseFault_rgb op f s)

theorem DataOk.complete {s : State} (h : DataOk s) : DataOk (complete s) :=
  h.congr (complete_snap s) (complete_ix s) (complete_surface s) (complete_rgb s)

theorem DataOk.raiseSurfaceError {s : State} (h : DataOk s) (op : Nibble) (v : View) :
    DataOk (raiseSurfaceError op v s) :=
  h.congr (raiseSurfaceError_snap op v s) (raiseSurfaceError_ix op v s) (fun u => raiseSurfaceError_surface op v u s)
    (raiseSurfaceError_rgb op v s)

theorem DataOk.clearReport {s : State} (h : DataOk s) : DataOk (clearReport s) :=
  h.congr (clearReport_snap s) (clearReport_ix s) (clearReport_surface s) (clearReport_rgb s)

theorem DataOk.acceptCommand {s : State} (h : DataOk s) (w : Word) : DataOk (acceptCommand w s) :=
  h.congr (acceptCommand_snap w s) (acceptCommand_ix w s) (acceptCommand_surface w s) (acceptCommand_rgb w s)

/-! ### The invariant's control: the flags, the report and the latched word (R23, R31) -/

/-- The registers while a command is in flight: `BUSY` alone is set, and nothing is reported. -/
def Running (s : State) : Prop :=
  s.status = { busy := true, done := false, fault := false, surf := false, code := 0, op := 0 } ∧ s.finfo = .zero

theorem running_acceptCommand (w : Word) {s : State} (h : s.status.fault = false) : Running (acceptCommand w s) :=
  ⟨started_cleared h, rfl⟩

theorem running_of_reportOk {s : State} (h : s.reportOk) (hb : s.status.busy = true) : Running s := by
  obtain ⟨hdone, hfault, hsurf, hnone⟩ := h
  have hd : s.status.done = false := Bool.eq_false_iff.mpr fun hd => hdone ⟨hb, hd⟩
  have hf : s.status.fault = false := Bool.eq_false_iff.mpr fun hf => by
    obtain ⟨hidle, -⟩ := hfault hf
    cases hb.symm.trans hidle
  have hs : s.status.surf = false := Bool.eq_false_iff.mpr fun hs => by
    obtain ⟨hidle, -⟩ := hsurf hs
    cases hb.symm.trans hidle
  obtain ⟨hcode, hop, hfinfo⟩ := hnone hf hs
  refine ⟨?_, hfinfo⟩
  calc s.status = ⟨s.status.busy, s.status.done, s.status.fault, s.status.surf, s.status.code, s.status.op⟩ := rfl
    _ = ⟨true, false, false, false, 0, 0⟩ := by rw [hb, hd, hf, hs, hcode, hop]; rfl

/-- The part of the invariant that speaks of the flags, the report and the latched word. -/
def ControlOk (s : State) : Prop := s.latchOk ∧ s.reportOk

theorem latchOk_of_idle {s : State} (hb : s.status.busy = false) (hl : s.latched = none) : s.latchOk := by
  rw [State.latchOk, hb, hl]
  exact ⟨rfl, fun _ h => nomatch h⟩

theorem controlOk_of_running {s : State} {w : Word} {i : Instr} (hrun : Running s) (hl : s.latched = some w)
    (hd : decode w = .ok i) : ControlOk s := by
  obtain ⟨hstatus, hfinfo⟩ := hrun
  refine ⟨⟨by rw [hstatus, hl]; rfl, fun w' hw' => ⟨i, ?_⟩⟩, ?_⟩
  · obtain rfl := Option.some.inj (hl.symm.trans hw')
    exact hd
  · rw [State.reportOk, hstatus, hfinfo]
    decide

theorem controlOk_complete {s : State} (hrun : Running s) : ControlOk (complete s) := by
  obtain ⟨hstatus, hfinfo⟩ := hrun
  refine ⟨latchOk_of_idle rfl rfl, ?_⟩
  rw [State.reportOk, complete_status, complete_finfo, hstatus, hfinfo]
  decide

theorem causeCode_mem {c : Cause} (h : c ≠ .invariant) : c.code ∈ [1#4, 4#4, 5#4] := by
  cases c with
  | invariant => exact absurd rfl h
  | _ => decide

theorem controlOk_raiseFault {op : Nibble} {f : FaultInfo} {s : State} (hf : s.status.fault = false)
    (hcause : f.cause ≠ .invariant) : ControlOk (raiseFault op f s) := by
  have hstatus := raiseFault_status (op := op) (f := f) hf
  refine ⟨latchOk_of_idle (by rw [hstatus]; rfl) (raiseFault_latched hf), ?_⟩
  rw [State.reportOk, hstatus]
  exact ⟨fun ⟨hb, _⟩ => Bool.false_ne_true hb, fun _ => ⟨rfl, rfl, causeCode_mem hcause⟩, nofun, nofun⟩

theorem controlOk_raiseSurfaceError {s : State} (hf : s.status.fault = false) (op : Nibble) (v : View) :
    ControlOk (raiseSurfaceError op v s) := by
  refine ⟨latchOk_of_idle rfl rfl, ?_⟩
  rw [State.reportOk, raiseSurfaceError_status, raiseSurfaceError_finfo]
  exact ⟨fun ⟨hb, _⟩ => Bool.false_ne_true hb, fun h => (nomatch hf.symm.trans h), fun _ => ⟨rfl, rfl, rfl⟩,
    fun _ => nofun⟩

/-! ### Every step keeps the invariant -/

theorem inv_iff (s : State) : s.Inv ↔ DataOk s ∧ ControlOk s := by
  simp only [State.Inv, DataOk, ControlOk]
  tauto

theorem inv_bodyOf {i : Instr} {s t : State} (hdata : DataOk s) (hrun : Running s) (h : bodyOf i s = .next t) :
    t.Inv := by
  obtain ⟨u, hu, hend⟩ := bodyOf_next_writes h
  obtain ⟨hustatus, hufinfo, -⟩ := hu.keepsControl
  have hurun : Running u := by rwa [Running, hustatus, hufinfo]
  have hudata := dataOk_writesDestination hu hdata
  rcases hend with rfl | ⟨op, f, hcause, rfl⟩
  · exact (inv_iff _).mpr ⟨hudata.complete, controlOk_complete hurun⟩
  · obtain ⟨hstatus, -⟩ := hurun
    exact (inv_iff _).mpr ⟨hudata.raiseFault op f,
      controlOk_raiseFault (by rw [hstatus]) (by rw [hcause]; exact Cause.noConfusion)⟩

theorem inv_raiseSurfaceError {s : State} (hdata : DataOk s) (hf : s.status.fault = false) (op : Nibble) (v : View) :
    (raiseSurfaceError op v s).Inv :=
  (inv_iff _).mpr ⟨hdata.raiseSurfaceError op v, controlOk_raiseSurfaceError hf op v⟩

theorem inv_illegal {s : State} (hdata : DataOk s) (hf : s.status.fault = false) (w : Word) : (illegal w s).Inv :=
  (inv_iff _).mpr ⟨hdata.clearReport.raiseFault _ _,
    controlOk_raiseFault (s := clearReport s) hf Cause.noConfusion⟩

/-- The word in flight is a command, so its destination is spoilt and the fault taken (R155). -/
theorem inv_overrun {s : State} (hs : s.Inv) (hb : s.status.busy = true) (w : Word) : (overrun w s).Inv := by
  obtain ⟨hdata, ⟨hlatched, hcommand⟩, hreport⟩ := (inv_iff s).mp hs
  obtain ⟨w₀, hl⟩ := Option.isSome_iff_exists.mp (hlatched.symm.trans hb)
  obtain ⟨i, hd⟩ := hcommand w₀ hl
  obtain ⟨hstatus, -⟩ := running_of_reportOk hreport hb
  rw [overrun_of_latched hl hd]
  exact (inv_iff _).mpr
    ⟨(dataOk_writesDestination (writesDestination_spoilDestination i s) hdata).raiseFault _ _,
      controlOk_raiseFault (by rw [spoilDestination_status, hstatus]) Cause.noConfusion⟩

theorem inv_exec {i : Instr} {s t : State} (hdata : DataOk s) (hrun : Running s) (h : exec i s = .next t) : t.Inv := by
  rcases exec_next h with ⟨v, -, -, rfl⟩ | ⟨-, hbody⟩
  · obtain ⟨hstatus, -⟩ := hrun
    exact inv_raiseSurfaceError hdata (by rw [hstatus]) _ v
  · exact inv_bodyOf hdata hrun hbody

/-- An accepted command is in flight, unless its surface is not ready. -/
theorem inv_sampleSurface {s : State} {w : Word} {i : Instr} (hdata : DataOk s) (hrun : Running s)
    (hl : s.latched = some w) (hd : decode w = .ok i) : (sampleSurface i s).Inv := by
  have haccepted : s.Inv := (inv_iff s).mpr ⟨hdata, controlOk_of_running hrun hl hd⟩
  unfold sampleSurface
  split
  · exact haccepted
  · split
    · exact haccepted
    · obtain ⟨hstatus, -⟩ := hrun
      exact inv_raiseSurfaceError hdata (by rw [hstatus]) _ _

/-- Both forms of a `CMD` write (R158). -/
theorem inv_cmdWrite {w : Word} {s t : State} (hs : s.Inv) (h : cmdWrite w s = .next t ∨ cmdBegin w s = t) : t.Inv := by
  obtain ⟨hdata, -⟩ := (inv_iff s).mp hs
  rcases cmdWrite_cases w s with ⟨hb, hw, hbegin⟩ | ⟨-, -, hw, hbegin⟩ | ⟨-, hf, hw, hbegin⟩ |
    ⟨i, -, hf, hd, hw, hbegin⟩ <;> rw [hw, hbegin] at h
  · obtain rfl : overrun w s = t := h.elim Host.Outcome.next.inj id
    exact inv_overrun hs hb w
  · obtain rfl : s = t := h.elim Host.Outcome.next.inj id
    exact hs
  · obtain rfl : illegal w s = t := h.elim Host.Outcome.next.inj id
    exact inv_illegal hdata hf w
  · rcases h with hexec | rfl
    · exact inv_exec (hdata.acceptCommand w) (running_acceptCommand w hf) hexec
    · exact inv_sampleSurface (hdata.acceptCommand w) (running_acceptCommand w hf) rfl hd

/-- A word in flight decodes, so its command's body ends it. -/
theorem inv_finishCommand {s t : State} (hs : s.Inv) (h : finishCommand s = .next t) : t.Inv := by
  cases hl : s.latched with
  | none =>
    obtain rfl := Host.Outcome.next.inj ((finishCommand_of_idle hl).symm.trans h)
    exact hs
  | some w =>
    obtain ⟨hdata, ⟨hlatched, hcommand⟩, hreport⟩ := (inv_iff s).mp hs
    obtain ⟨i, hd⟩ := hcommand w hl
    exact inv_bodyOf hdata (running_of_reportOk hreport (by rw [hlatched, hl]; rfl))
      ((finishCommand_of_latched hl hd).symm.trans h)

theorem inv_agentMove {s t : State} (hs : s.Inv) (h : AgentMove s t) : t.Inv := by
  cases h with
  | provide hidle hok =>
    obtain ⟨hmem, hrest⟩ := hs
    obtain ⟨hsnap, hothers⟩ := (memoriesOk_iff s).mp hmem
    exact ⟨(memoriesOk_iff _).mpr ⟨hok hsnap, hothers⟩, hrest⟩
  | _ => exact hs

/-- A block without a value, a report or a command in flight meets the invariant on every snapshot that does. -/
theorem inv_of_reset {s : State} (hsnap : SnapshotOk s.snap) (hix : s.ix = []) (hsurface : ∀ v, s.surface v = [])
    (hstatus : s.status = .zero) (hrgb : s.rgb = 0) (hfinfo : s.finfo = .zero) (hl : s.latched = none) : s.Inv := by
  refine ⟨(memoriesOk_iff s).mpr ⟨hsnap, by rw [hix]; exact .nil, fun v => by rw [hsurface]; exact .nil⟩,
    latchOk_of_idle (by rw [hstatus]; rfl) hl, ?_, ?_⟩
  · rw [State.reportOk, hstatus, hfinfo]
    decide
  · rw [State.rgbOk, hrgb]
    decide

/-- Settles O51: after reset the snapshot and the outputs hold nothing, and no register reports anything. -/
theorem resetMeetsTheInvariant : Obligations.ResetMeetsTheInvariant :=
  inv_of_reset ⟨.nil, .nil, .nil, .nil, .nil⟩ rfl reset_surface rfl rfl rfl rfl

theorem inv_resetBlock {s : State} (hs : s.Inv) : (resetBlock s).Inv := by
  obtain ⟨hmem, -⟩ := hs
  obtain ⟨hsnap, -⟩ := (memoriesOk_iff s).mp hmem
  exact inv_of_reset hsnap (resetBlock_ix s) (resetBlock_surface s) (resetBlock_status s) (resetBlock_rgb s)
    (resetBlock_finfo s) (resetBlock_latched s)

/-- Settles O52: each of the four kinds of move keeps the invariant. -/
theorem everyStepKeepsTheInvariant : Obligations.EveryStepKeepsTheInvariant := by
  intro s t hs h
  rw [step_eq_applyEvent] at h
  have hs' : (s.setInputs s.inputs.tail).Inv := hs
  rcases applyEvent_next_move h with hmove | ⟨w, -, hw⟩ | ⟨-, hfinish⟩ | ⟨-, rfl⟩
  · exact inv_agentMove hs' hmove
  · exact inv_cmdWrite hs' hw
  · exact inv_finishCommand hs' hfinish
  · exact inv_resetBlock hs'

end Sys2Proof
end
